-- ==== Sys2Proof/Word.lean ====
section
/-! DEFINITION. The widths of the block's words (00_scope.md R5, R6; 10_state.md R20). -/

namespace Sys2Proof

/-- A device register value, a command word, a status code (16 bits). -/
abbrev Word16 := BitVec 16

/-- A host register (32 bits), the width of the host port's data. -/
abbrev Reg := BitVec 32

/-- A device register address, and the bus address (8 bits). -/
abbrev Addr := BitVec 8

/-- A host register number (4 bits). -/
abbrev RegNo := BitVec 4

/-- A 3-bit selector (30_encoding.md R81 to R83). -/
abbrev Sel := BitVec 3

end Sys2Proof
end

