-- ==== Sys2Proof/Config.lean ====
section
/-! DEFINITION. The parameters of the block (00_scope.md R5) and the free values of its environment. -/

namespace Sys2Proof

/-- The status of one `MemWrite` (20_memory.md R55). -/
inductive TransportStatus where
  | ok
  | fail
deriving DecidableEq, Repr, Inhabited

/-- One of `MEAS_BUS`, `MEAS_SHUNT` (30_encoding.md R83): for each mode whether it performs the
measurement. Modes 0 and 4 have no entry: "Any choice of the parameters must satisfy
`MEAS_BUS(0) = MEAS_SHUNT(0) = MEAS_BUS(4) = MEAS_SHUNT(4) = 0`". -/
structure ModeTable where
  m1 : Bool
  m2 : Bool
  m3 : Bool
  m5 : Bool
  m6 : Bool
  m7 : Bool
deriving DecidableEq, Repr

/-- The parameters of the block, "fixed before reset is released" (10_state.md R31, 00_scope.md R5).
State carries them read-only, so a statement about every state holds for every choice (log 1). -/
structure Params where
  /-- `DEVADDR`, the bus address; its range is not checked (R31). -/
  devAddr : Addr
  /-- `CACHE_RESET`, in the layout of `CFGCACHE` (10_state.md R38). -/
  cacheReset : BitVec 12
  /-- `MEAS_BUS`. -/
  measBus : ModeTable
  /-- `MEAS_SHUNT`. -/
  measShunt : ModeTable
deriving DecidableEq, Repr

/-- The parameters `State.reset` takes. `CACHE_RESET = 0x000` is the spec's default (92_eei_decisions.md
D14; DESIGN CHOICE, log 3). `MEAS_BUS(m) = m[1]`, `MEAS_SHUNT(m) = m[0]` is the spec's default from
general knowledge (D17; PRESUMED, log 4). The spec gives no default bus address: 0x40 is the lowest
of its valid range (R31; DESIGN CHOICE, log 2). -/
def Config.defaultParams : Params where
  devAddr := 0x40#8
  cacheReset := 0x000#12
  measBus := { m1 := false, m2 := true, m3 := true, m5 := false, m6 := true, m7 := true }
  measShunt := { m1 := true, m2 := false, m3 := true, m5 := true, m6 := false, m7 := true }

/-- FREE VALUE: what the n-th `MemRead` returns when State lists no answer for it. "A model lets the
environment choose any 16-bit value for every `MemRead`" (20_memory.md R54; log 5). -/
opaque Config.freeRead : Nat → Word16

/-- FREE VALUE: what the n-th `MemWrite` answers when State lists no answer for it (20_memory.md R55; log 5). -/
opaque Config.freeWrite : Nat → TransportStatus

end Sys2Proof
end

