-- ==== Sys2Proof/Syntax.lean ====
section
/-! DEFINITION. The commands of the block: one constructor for each row of the opcode map (30_encoding.md R71). -/

namespace Sys2Proof

/-- A command. `imm8` is "an unsigned integer 0 to 255, used as it stands" (30_encoding.md R72); its bound is
`WellFormed` (log 11). -/
inductive Instr where
  /-- `SETMODE #imm8` (R106). -/
  | setmode (imm8 : Nat)
  /-- `SETSVCT #imm8` (R107). -/
  | setsvct (imm8 : Nat)
  /-- `SETBVCT #imm8` (R108). -/
  | setbvct (imm8 : Nat)
  /-- `SETAVG #imm8` (R109). -/
  | setavg (imm8 : Nat)
  /-- `SRST` (R115). -/
  | srst
  /-- `GETMODE` (R111). -/
  | getmode
  /-- `GETSVCT` (R112). -/
  | getsvct
  /-- `GETBVCT` (R113). -/
  | getbvct
  /-- `GETAVG` (R114). -/
  | getavg
  /-- `CAL #n`; `n` is the source's boolean `normalize` (R73, R120). -/
  | cal (n : Bool)
  /-- `TMOEST` (R153). -/
  | tmoest
  /-- `ISRDY` (R155). -/
  | isrdy
  /-- `WAITT` (R159). -/
  | waitt
  /-- `WAITC` (R160). -/
  | waitc
deriving DecidableEq, Repr

end Sys2Proof
end

