-- ==== Sys2Proof/WellFormed.lean ====
section
/-! DEFINITION. Which commands have an encoding: `imm8` fits in `w[7:0]` (30_encoding.md R70, R72). -/

namespace Sys2Proof

/-- The operand of a command fits its field. -/
def Instr.wellFormed : Instr → Bool
  | .setmode imm8 => decide (imm8 < 256)
  | .setsvct imm8 => decide (imm8 < 256)
  | .setbvct imm8 => decide (imm8 < 256)
  | .setavg imm8 => decide (imm8 < 256)
  | .srst => true
  | .getmode => true
  | .getsvct => true
  | .getbvct => true
  | .getavg => true
  | .cal _ => true
  | .tmoest => true
  | .isrdy => true
  | .waitt => true
  | .waitc => true

/-- A command that has an encoding. -/
abbrev WellFormed (i : Instr) : Prop := i.wellFormed = true

end Sys2Proof
end

