-- ==== Sys2Proof/Decode.lean ====
section
/-! DEFINITION. The decoder of command words, total and rejecting by name, and the encoder
(30_encoding.md R70 to R75). -/

namespace Sys2Proof

/-- Why a 16-bit word is illegal (30_encoding.md R74). -/
inductive DecodeError where
  /-- `op` is none of the fourteen. -/
  | unknownOp
  /-- A `C0` command with `w[7:0] != 0`. -/
  | operandOnC0
  /-- `CAL` with `w[7:1] != 0`. -/
  | calOperand
deriving DecidableEq, Repr

/-- `op = w[15:8]` (R70). -/
def opField (w : Word16) : Nat := w.toNat / 256

/-- `imm8 = w[7:0]` (R70, R72). -/
def immField (w : Word16) : Nat := w.toNat % 256

/-- Format `C0`: bits 7:0 "must be 0x00" (R70). -/
def decodeC0 (imm : Nat) (i : Instr) : Except DecodeError Instr :=
  if imm = 0 then .ok i else .error .operandOnC0

/-- `CAL`: `imm8[0]` is `normalize`, `imm8[7:1]` must be 0 (R71, R73). -/
def decodeCal (imm : Nat) : Except DecodeError Instr :=
  if imm = 0 then .ok (.cal false) else if imm = 1 then .ok (.cal true) else .error .calOperand

/-- The command a word stands for (R71), or the reason why it is illegal (R74). -/
def decode (w : Word16) : Except DecodeError Instr :=
  match opField w with
  | 0x10 => .ok (.setmode (immField w))
  | 0x11 => .ok (.setsvct (immField w))
  | 0x12 => .ok (.setbvct (immField w))
  | 0x13 => .ok (.setavg (immField w))
  | 0x18 => decodeC0 (immField w) .srst
  | 0x20 => decodeC0 (immField w) .getmode
  | 0x21 => decodeC0 (immField w) .getsvct
  | 0x22 => decodeC0 (immField w) .getbvct
  | 0x23 => decodeC0 (immField w) .getavg
  | 0x30 => decodeCal (immField w)
  | 0x40 => decodeC0 (immField w) .tmoest
  | 0x41 => decodeC0 (immField w) .isrdy
  | 0x42 => decodeC0 (immField w) .waitt
  | 0x43 => decodeC0 (immField w) .waitc
  | _ => .error .unknownOp

/-- The word of a well-formed command, `match OR operand` (R71; the "Encoding" lines of R106 to R115, R120,
R153 to R160). -/
def encode : Instr → Word16
  | .setmode imm8 => 0x1000#16 ||| BitVec.ofNat 16 imm8
  | .setsvct imm8 => 0x1100#16 ||| BitVec.ofNat 16 imm8
  | .setbvct imm8 => 0x1200#16 ||| BitVec.ofNat 16 imm8
  | .setavg imm8 => 0x1300#16 ||| BitVec.ofNat 16 imm8
  | .srst => 0x1800#16
  | .getmode => 0x2000#16
  | .getsvct => 0x2100#16
  | .getbvct => 0x2200#16
  | .getavg => 0x2300#16
  | .cal n => 0x3000#16 ||| BitVec.ofNat 16 n.toNat
  | .tmoest => 0x4000#16
  | .isrdy => 0x4100#16
  | .waitt => 0x4200#16
  | .waitc => 0x4300#16

/-- The command word whose `nbits` low bits are `w` and whose other bits are 0. The block moves a command word
whole, so no byte order arises (20_memory.md R58). -/
def tableWord (nbits w : Nat) : Word16 := BitVec.ofNat 16 (w % 2 ^ nbits)

/-- What the decoder reads from a row of the opcode table. -/
def decodeTableWord (nbits w : Nat) : Option Instr :=
  match decode (tableWord nbits w) with
  | .ok i => some i
  | .error _ => none

end Sys2Proof
end

