-- ==== Sys2Proof/Machine/State.lean ====
section
/-! DEFINITION. The state of the block (10_state.md), with the inputs and the answers its environment still has to
give, and its value after reset (10_state.md R38, 70_reset_and_hazards.md R191). -/

namespace Sys2Proof.Machine

/-- No fault exists: "There are no synchronous exceptions, no traps and no faults" (60_exceptions.md R170; log 12).
A failure is a code in `STATUS` and a next state. -/
inductive Fault where
deriving DecidableEq, Repr

/-- Why the model, not the block, would stop. -/
inductive Refusal where
  /-- Raised by `exec` for a command without a meaning (safe). No arm uses it: every command has its meaning. -/
  | notModelled (mnemonic : String)
deriving DecidableEq, Repr

/-- The configuration cache: the four selectors last written or read (10_state.md R29). -/
structure CfgCache where
  /-- `C_AVG`, `CFGCACHE[11:9]`. -/
  avg : Sel
  /-- `C_BVCT`, `CFGCACHE[8:6]`. -/
  bvct : Sel
  /-- `C_SVCT`, `CFGCACHE[5:3]`. -/
  svct : Sel
  /-- `C_MODE`, `CFGCACHE[2:0]`. -/
  mode : Sel
deriving DecidableEq, Repr

/-- An action of the host on the register port (20_memory.md R51), or the platform's reset (70_reset_and_hazards.md R190). -/
inductive Input where
  | hostRead (i : RegNo)
  | hostWrite (i : RegNo) (data : Reg)
  | reset
deriving DecidableEq, Repr

/-- What the block does at its two ports, seen from outside (log 8). The accesses of one command are separate events
that the device and other users of the bus can see between (20_memory.md R52). -/
inductive Event where
  /-- `MemRead(a, 2)` with bus address `dev`, answered `v` (20_memory.md R54). -/
  | memRead (dev : Addr) (a : Addr) (v : Word16)
  /-- `MemWrite(a, 2, v)` with bus address `dev`, answered `st` (20_memory.md R55). -/
  | memWrite (dev : Addr) (a : Addr) (v : Word16) (st : TransportStatus)
  /-- `Sleep(1)` (42_timeout_wait.md R157). -/
  | sleep
  /-- The host read register `i` and got `v` (20_memory.md R51). -/
  | hostRead (i : RegNo) (v : Reg)
  /-- The block was reset (70_reset_and_hazards.md R190). -/
  | reset
deriving DecidableEq, Repr

/-- The state of the block between two host actions. `CMD` stores nothing (20_memory.md R51) and the reserved numbers
hold nothing (10_state.md R40), so neither has a field. -/
structure State where
  /-- `MAXI`, x[0] (10_state.md R21). -/
  maxi : Reg
  /-- `SHUNT`, x[1] (R21). -/
  shunt : Reg
  /-- `TMO`, x[2] (R21). -/
  tmo : Reg
  /-- `STATUS`, x[4] (R22). -/
  status : Word16
  /-- `VALUE`, x[5] (R22). -/
  value : Reg
  /-- `AUX`, x[6] (R22). -/
  aux : Reg
  /-- `CURRENT_LSB`, x[7], in units of 2^-15 microampere per count (R24). -/
  currentLsb : Reg
  /-- `SHUNT_C`, x[8] (R25). -/
  shuntC : Reg
  /-- `MAXCURRENT_C`, x[9] (R26). -/
  maxCurrentC : Reg
  /-- `CAL`, x[10] (R27). -/
  cal : Word16
  /-- `CFGCACHE`, x[11] (R29). -/
  cache : CfgCache
  /-- The parameters, `DEVADDR` (x[12], R31) among them; no step changes them (log 1). -/
  params : Params
  /-- The host actions and resets still to come, the next one first (log 6). -/
  inputs : List Input
  /-- The values the coming reads of the device return, the next one first (log 5). -/
  readAnswers : List Word16
  /-- The statuses the coming writes of the device return, the next one first (log 5). -/
  writeAnswers : List TransportStatus
  /-- How many reads have been answered: the argument of `Config.freeRead` (log 5). -/
  readIndex : Nat
  /-- How many writes have been answered: the argument of `Config.freeWrite` (log 5). -/
  writeIndex : Nat
  /-- What happened at the two ports, newest first (log 8). -/
  trace : List Event
deriving DecidableEq, Repr

/-- The cache fields of a 12-bit word in the layout of `CFGCACHE` (10_state.md R29, R38). -/
def CfgCache.ofWord (w : BitVec 12) : CfgCache where
  avg := w.extractLsb' 9 3
  bvct := w.extractLsb' 6 3
  svct := w.extractLsb' 3 3
  mode := w.extractLsb' 0 3

/-- The block just reset, with parameters `p` (10_state.md R38, 70_reset_and_hazards.md R191), with nothing yet given
by its environment. -/
def State.resetWith (p : Params) : State where
  maxi := 0
  shunt := 0
  tmo := 0
  status := 0x0000
  value := 0
  aux := 0
  currentLsb := 0
  shuntC := 0
  maxCurrentC := 0
  cal := 0
  cache := CfgCache.ofWord p.cacheReset
  params := p
  inputs := []
  readAnswers := []
  writeAnswers := []
  readIndex := 0
  writeIndex := 0
  trace := []

/-- The machine right after reset, with the parameters of `Config.defaultParams` (log 2, 3, 4). -/
def State.reset : State := State.resetWith Config.defaultParams

end Sys2Proof.Machine
end

