-- ==== Sys2Proof/Machine/Operands.lean ====
section
/-! DEFINITION. The operands of the commands: the fields of the configuration register and their packing
(30_encoding.md R76, R77; 40_config_codec.md R100 to R104), the selector tables (30_encoding.md R81 to R83), and the
cache by field. -/

namespace Sys2Proof

/-- `MEAS_BUS(m)` or `MEAS_SHUNT(m)`, 0 or 1 (42_timeout_wait.md R150; zero at modes 0 and 4, 30_encoding.md R83). -/
def ModeTable.measures (t : ModeTable) (m : Sel) : Nat :=
  ([false, t.m1, t.m2, t.m3, false, t.m5, t.m6, t.m7].getD m.toNat false).toNat

end Sys2Proof

namespace Sys2Proof.Machine

/-- The fields of device register 0x00 the source describes (30_encoding.md R76). -/
inductive CfgField where
  | mode
  | svct
  | bvct
  | avg
  | rst
deriving DecidableEq, Repr

/-- The four fields with a cached copy and set and get commands, field index 0 to 3 (30_encoding.md R77). -/
inductive Selector where
  | mode
  | svct
  | bvct
  | avg
deriving DecidableEq, Repr

/-- The field of the configuration register a selector stands in. -/
def Selector.field : Selector → CfgField
  | .mode => .mode
  | .svct => .svct
  | .bvct => .bvct
  | .avg => .avg

/-- `off(f)` (40_config_codec.md R100). -/
def CfgField.off : CfgField → Nat
  | .mode => 0
  | .svct => 3
  | .bvct => 6
  | .avg => 9
  | .rst => 15

/-- `wid(f)` (R100). -/
def CfgField.wid : CfgField → Nat
  | .mode => 3
  | .svct => 3
  | .bvct => 3
  | .avg => 3
  | .rst => 1

/-- `msk(f) = ((1 << wid) - 1) << off` (30_encoding.md R77). -/
def CfgField.msk (f : CfgField) : Word16 := BitVec.ofNat 16 (2 ^ f.wid - 1) <<< f.off

/-- `cfg_extract(w, f)` (40_config_codec.md R101). -/
def cfgExtract (w : Word16) (f : CfgField) : Word16 := (w &&& f.msk) >>> f.off

/-- `cfg_insert(w, f, v)` (R102); no command calls it with `v >= 2^wid(f)`. -/
def cfgInsert (w : Word16) (f : CfgField) (v : Nat) : Word16 :=
  (w &&& ~~~f.msk) ||| (BitVec.ofNat 16 v <<< f.off)

/-- `cfg_pack(base, rst, avg, bvct, svct, mode)` (R104). -/
def cfgPack (base : Word16) (rst avg bvct svct mode : Nat) : Word16 :=
  cfgInsert (cfgInsert (cfgInsert (cfgInsert (cfgInsert base .rst rst) .avg avg) .bvct bvct) .svct svct) .mode mode

/-- The five fields of a configuration word, `cfg_unpack(w)` in the order rst, avg, bvct, svct, mode (R104). -/
def cfgUnpack (w : Word16) : Word16 × Word16 × Word16 × Word16 × Word16 :=
  (cfgExtract w .rst, cfgExtract w .avg, cfgExtract w .bvct, cfgExtract w .svct, cfgExtract w .mode)

/-- `avg_samples(s)` (30_encoding.md R81). -/
def avgSamples (s : Sel) : Nat := [1, 4, 16, 64, 128, 256, 512, 1024].getD s.toNat 0

/-- `ct_us(s)` in microseconds, for either conversion time (30_encoding.md R82). -/
def ctUs (s : Sel) : Nat := [140, 204, 332, 588, 1100, 2116, 4156, 8244].getD s.toNat 0

/-- `mode_canon(m)`: "0 if m = 4, else m" (30_encoding.md R83). -/
def modeCanon (m : Sel) : Nat := if m = 4#3 then 0 else m.toNat

/-- The decoded meaning of a selector, `AUX` of the `GETx` commands (40_config_codec.md R110, R116). -/
def Selector.decoded : Selector → Sel → Nat
  | .mode, v => modeCanon v
  | .svct, v => ctUs v
  | .bvct, v => ctUs v
  | .avg, v => avgSamples v

/-- `CFGCACHE`, the cache packed at the positions of the device's fields (10_state.md R29). -/
def CfgCache.pack (c : CfgCache) : BitVec 12 := c.avg ++ c.bvct ++ c.svct ++ c.mode

/-- One cache field. -/
def CfgCache.get (c : CfgCache) : Selector → Sel
  | .mode => c.mode
  | .svct => c.svct
  | .bvct => c.bvct
  | .avg => c.avg

/-- `cache(f) <- v` (40_config_codec.md R105). -/
def CfgCache.set (c : CfgCache) (f : Selector) (v : Sel) : CfgCache :=
  match f with
  | .mode => { c with mode := v }
  | .svct => { c with svct := v }
  | .bvct => { c with bvct := v }
  | .avg => { c with avg := v }

end Sys2Proof.Machine
end

