-- ==== Sys2Proof/Machine/Flags.lean ====
section
/-! DEFINITION. What plays the part of flags (10_state.md R32): the status codes (30_encoding.md R84), the
conversion-ready flag (R80), and the uncalibrated sentinel (10_state.md R24). -/

namespace Sys2Proof.Machine

/-- The status codes by name (30_encoding.md R84). -/
inductive Status where
  | ok
  | shuntVoltageHigh
  | maxCurrentLow
  | shuntLow
  | normalizeFailed
  | writeFailed
  | illegalCmd
deriving DecidableEq, Repr

/-- The value of a status code (30_encoding.md R84). -/
def Status.code : Status → Word16
  | .ok => 0x0000
  | .shuntVoltageHigh => 0x8000
  | .maxCurrentLow => 0x8001
  | .shuntLow => 0x8002
  | .normalizeFailed => 0x8003
  | .writeFailed => 0x8004
  | .illegalCmd => 0x80FF

/-- "Bit 15 set means failure" (30_encoding.md R84). -/
def State.failed (s : State) : Bool := s.status.getLsbD 15

/-- `ready(r) = r[3]`, the conversion-ready flag of the mask/enable register (30_encoding.md R80). -/
def readyFlag (r : Word16) : Bool := r.getLsbD 3

/-- The sentinel `CURRENT_LSB = 0` (10_state.md R24). -/
def State.uncalibrated (s : State) : Bool := s.currentLsb == 0

end Sys2Proof.Machine
end

