-- ==== Sys2Proof/Machine/Ops.lean ====
section
/-! DEFINITION. The named operations over the state: the register transport (20_memory.md R54 to R57), the end of a
command (00_scope.md R8), the host port (20_memory.md R51) and the block's reset (70_reset_and_hazards.md R190). -/

namespace Sys2Proof.Machine

/-! The register transport. -/

/-- "The three device register addresses the block issues" (30_encoding.md R87): 0x00, configuration. -/
def regConfiguration : Addr := 0x00

/-- 0x05, calibration (R87). -/
def regCalibration : Addr := 0x05

/-- 0x06, mask/enable (R87). -/
def regMaskEnable : Addr := 0x06

/-- The device register map (20_memory.md R53). -/
def deviceRegisterMap : List (Addr × String) :=
  [(0x00, "configuration"), (0x01, "shunt voltage"), (0x02, "bus voltage"), (0x03, "power"), (0x04, "current"),
   (0x05, "calibration"), (0x06, "mask/enable"), (0x07, "alert limit"), (0xFE, "manufacturer ID"), (0xFF, "die ID")]

/-- What the read after `k` more reads returns: the listed answer, else a free value (20_memory.md R54; log 5). -/
def State.readAt (s : State) (k : Nat) : Word16 :=
  match s.readAnswers[k]? with
  | some v => v
  | none => Config.freeRead (s.readIndex + k)

/-- What the next write answers: the listed status, else a free value (20_memory.md R55; log 5). -/
def State.nextWrite (s : State) : TransportStatus :=
  match s.writeAnswers with
  | st :: _ => st
  | [] => Config.freeWrite s.writeIndex

/-- Record an event; the newest stands first. -/
def State.logEvent (s : State) (e : Event) : State := { s with trace := e :: s.trace }

/-- The value of `MemRead(a, 2)` (20_memory.md R54): whatever the environment answers next. -/
def memReadValue (s : State) : Word16 := s.readAt 0

/-- The state after `MemRead(a, 2)`: the answer is used up, the access is seen on the bus, nothing else changes. -/
def memReadState (a : Addr) (s : State) : State :=
  { s with
    readAnswers := s.readAnswers.tail
    readIndex := s.readIndex + 1
    trace := .memRead s.params.devAddr a (memReadValue s) :: s.trace }

/-- `MemRead(a, 2)` (20_memory.md R54). -/
def memRead (a : Addr) (s : State) : Word16 × State := (memReadValue s, memReadState a s)

/-- The state after `MemWrite(a, 2, v)`. -/
def memWriteState (a : Addr) (v : Word16) (s : State) : State :=
  { s with
    writeAnswers := s.writeAnswers.tail
    writeIndex := s.writeIndex + 1
    trace := .memWrite s.params.devAddr a v s.nextWrite :: s.trace }

/-- `MemWrite(a, 2, v)`, offered once and never retried (20_memory.md R55). -/
def memWrite (a : Addr) (v : Word16) (s : State) : TransportStatus × State := (s.nextWrite, memWriteState a v s)

/-- `Sleep(1)` (42_timeout_wait.md R157). -/
def sleep1 (s : State) : State := s.logEvent .sleep

/-! The byte contract of the transport (20_memory.md R56, R57), outside the block. -/

/-- A bus transaction with peripheral `dev`. -/
inductive BusTransaction where
  /-- `beginTransfer`, the bytes in order, `endTransfer`. -/
  | send (dev : Addr) (bytes : List (BitVec 8))
  /-- `requestBytes`, the bytes in the order they arrive. -/
  | receive (dev : Addr) (bytes : List (BitVec 8))
deriving DecidableEq, Repr

/-- The two bytes of a register value, most significant first (20_memory.md R58). -/
def bigEndianBytes (v : Word16) : List (BitVec 8) := [v.extractLsb' 8 8, v.extractLsb' 0 8]

/-- `(high << 8) OR low` (20_memory.md R56). -/
def assembleBytes (high low : BitVec 8) : Word16 := (high.setWidth 16 <<< 8) ||| low.setWidth 16

/-- The bus transactions of an access: a read is two, a write is one (20_memory.md R56, R57; 90_conflicts.md C4). -/
def Event.busTransactions : Event → List BusTransaction
  | .memRead dev a v => [.send dev [a], .receive dev (bigEndianBytes v)]
  | .memWrite dev a v _ => [.send dev (a :: bigEndianBytes v)]
  | .sleep => []
  | .hostRead _ _ => []
  | .reset => []

/-! The end of a command. -/

/-- `done(s, v, a)` (00_scope.md R8). -/
def done (st : Status) (v a : Reg) (s : State) : State :=
  { s with status := st.code, value := v, aux := a }

/-- `raise <Status>`, the block's only "exception": `VALUE` and `AUX` are 0 (00_scope.md R8, 60_exceptions.md R176). -/
def raise (st : Status) (s : State) : State := done st 0 0 s

/-- An illegal word "does nothing but `done(ST_ERR_ILLEGAL_CMD, 0, 0)`" (30_encoding.md R74). -/
def illegalCommand (s : State) : State := raise .illegalCmd s

/-! The host port. -/

/-- What a host read of register number `i` returns (10_state.md R20, R40; 20_memory.md R51). -/
def readReg (i : RegNo) (s : State) : Reg :=
  match i.toNat with
  | 0 => s.maxi
  | 1 => s.shunt
  | 2 => s.tmo
  | 3 => 0
  | 4 => s.status.setWidth 32
  | 5 => s.value
  | 6 => s.aux
  | 7 => s.currentLsb
  | 8 => s.shuntC
  | 9 => s.maxCurrentC
  | 10 => s.cal.setWidth 32
  | 11 => s.cache.pack.setWidth 32
  | 12 => s.params.devAddr.setWidth 32
  | _ => 0

/-- A host read: no register changes, the host sees the value (20_memory.md R51). -/
def hostRead (i : RegNo) (s : State) : State := s.logEvent (.hostRead i (readReg i s))

/-- A host write to any register but `CMD`: operand registers store the data, the others ignore it (20_memory.md R51). -/
def hostWrite (i : RegNo) (data : Reg) (s : State) : State :=
  match i.toNat with
  | 0 => { s with maxi := data }
  | 1 => { s with shunt := data }
  | 2 => { s with tmo := data }
  | _ => s

/-- The register number of `CMD` (10_state.md R20). -/
def regCmd : RegNo := 3

/-- The command word of a host write to `CMD`: "bits 31:16 of the data are ignored" (20_memory.md R51). -/
def commandWord (data : Reg) : Word16 := data.setWidth 16

/-- The host write that issues a command word (30_encoding.md R85: `x[3] <- word`). -/
def commandInput (w : Word16) : Input := .hostWrite regCmd (w.setWidth 32)

/-- The next input is taken; the rest stay to come. -/
def State.withInputs (s : State) (rest : List Input) : State := { s with inputs := rest }

/-! Reset. -/

/-- The block's reset, applied from outside: every register as after construction (10_state.md R38), no device access
(70_reset_and_hazards.md R192); the parameters stay, and so does what the environment still has to give (log 9). -/
def resetBlock (s : State) : State :=
  { State.resetWith s.params with
    inputs := s.inputs
    readAnswers := s.readAnswers
    writeAnswers := s.writeAnswers
    readIndex := s.readIndex
    writeIndex := s.writeIndex
    trace := .reset :: s.trace }

end Sys2Proof.Machine
end

