-- ==== Sys2Proof/Machine/Calibration.lean ====
section
/-! DEFINITION. The calibration register computer: `CAL` (41_calibration.md). Every formula is the exact integer form
the spec gives (00_scope.md R7). -/

namespace Sys2Proof.Machine

/-- What the computation hands to the write: `L` in units of 2^-15 microampere, `c`, and the number `k` of auto-scale
steps (41_calibration.md R120). -/
structure Scaled where
  lsb : Nat
  calib : Nat
  shifts : Nat
deriving DecidableEq, Repr

/-- The three precondition checks, "checked in order" (R122, R123, R124): the code of the first that fails. -/
def precheck (M S : Nat) : Option Status :=
  if M * S > 80000000000 then some .shuntVoltageHigh
  else if M < 1000 then some .maxCurrentLow
  else if S < 1000 then some .shuntLow
  else none

/-- The 1-2-5 sequence in microamperes per count (R128). -/
def sequence125 : List Nat := [1, 2, 5, 10, 20, 50, 100, 200, 500, 1000, 2000, 5000]

/-- `snap125(u)`: the least member that is `>= u`; none when the sequence is exhausted (R128, R129). -/
def snap125 (u : Nat) : Option Nat := sequence125.find? (fun m => decide (u ≤ m))

/-- `u = floor(max(M / 32768, 78125 / S)) + 1` (R126, R127): the floor of the greater of two quotients is the greater
of their floors (log 16). -/
def ceilingMicroamps (M S : Nat) : Nat := max (M / 32768) (78125 / S) + 1

/-- `L` before the register value is computed: the baseline `M`, or the snapped value (R125, R128); none on
normalisation failure (R129). -/
def scaleFactor (n : Bool) (M S : Nat) : Option Nat :=
  match n with
  | false => some M
  | true =>
    match snap125 (ceilingMicroamps M S) with
    | none => none
    | some m => some (32768 * m)

/-- `round_half_up(167772160000000 / (L * S))`, in the spec's own integer form (R130). -/
def calibValue (L S : Nat) : Nat := (2 * 167772160000000 + L * S) / (2 * L * S)

/-- The auto-scaling loop (R131), with a bound on its passes. -/
def autoScaleFuel : Nat → Nat → Nat → Nat → Scaled
  | 0, c, L, k => { lsb := L, calib := c, shifts := k }
  | fuel + 1, c, L, k =>
    if c > 65535 then autoScaleFuel fuel (c / 2) (2 * L) (k + 1) else { lsb := L, calib := c, shifts := k }

/-- `while c > 65535 do c <- c >> 1 ; L <- 2 * L ; k <- k + 1` from `k = 0` (R131). A number has one bit more than its
binary logarithm, so the bound is never what ends the loop (log 16). -/
def autoScale (c L : Nat) : Scaled := autoScaleFuel (Nat.log2 c + 1) c L 0

/-- The computation of `CAL` up to the write: a code, or what is to be written (R120). -/
def calCompute (n : Bool) (M S : Nat) : Except Status Scaled :=
  match precheck M S with
  | some e => .error e
  | none =>
    match scaleFactor n M S with
    | none => .error .normalizeFailed
    | some L => .ok (autoScale (calibValue L S) L)

/-! Normalisation cannot fail (R135, R136): "a model may prove this instead of assuming it". -/

/-- The checks pass exactly inside the three limits. -/
theorem precheck_none (M S : Nat) : precheck M S = none ↔ M * S ≤ 80000000000 ∧ 1000 ≤ M ∧ 1000 ≤ S := by
  unfold precheck
  split_ifs <;> simp <;> omega

/-- The codes a failed check can give. -/
theorem precheck_some {M S : Nat} {e : Status} (h : precheck M S = some e) :
    e = .shuntVoltageHigh ∨ e = .maxCurrentLow ∨ e = .shuntLow := by
  unfold precheck at h
  split_ifs at h <;> simp_all

/-- Inside the limits each operand is at most 80000000 (R135). -/
theorem operand_le {M S : Nat} (h : precheck M S = none) : M ≤ 80000000 ∧ S ≤ 80000000 := by
  obtain ⟨h1, hM, hS⟩ := (precheck_none M S).mp h
  constructor <;> nlinarith

/-- Up to 5000 there is a member. -/
theorem snap125_isSome {u : Nat} (h : u ≤ 5000) : ∃ m, snap125 u = some m := by
  rw [← Option.isSome_iff_exists, snap125, List.find?_isSome]
  exact ⟨5000, by decide, by simpa using h⟩

/-- Normalisation is defined on the operands: "`u <= 2442 <= 5000` and `snap125(u)` is defined" (R136). -/
def NormalizationDefined (M S : Nat) : Prop :=
  ceilingMicroamps M S ≤ 2442 ∧ ∃ m, snap125 (ceilingMicroamps M S) = some m

/-- Once the three checks have passed, normalisation is defined (R136). -/
theorem normalization_defined {M S : Nat} (h : precheck M S = none) : NormalizationDefined M S := by
  have hM := (operand_le h).1
  have hS : 78125 / S ≤ 78125 / 1000 := Nat.div_le_div_left ((precheck_none M S).mp h).2.2 (by norm_num)
  have hu : ceilingMicroamps M S ≤ 2442 := by unfold ceilingMicroamps; omega
  exact ⟨hu, snap125_isSome (by omega)⟩

/-- Once the three checks have passed there is a scale factor, for both values of `n` (R136). -/
theorem scaleFactor_defined (n : Bool) {M S : Nat} (h : precheck M S = none) : ∃ L, scaleFactor n M S = some L := by
  cases n with
  | false => exact ⟨M, rfl⟩
  | true =>
    obtain ⟨-, m, hm⟩ := normalization_defined h
    exact ⟨32768 * m, by simp [scaleFactor, hm]⟩

/-- The computation of `CAL` never ends in a normalisation failure, whatever the operands: `ST_ERR_NORMALIZE_FAILED`
"is unreachable from `CAL`" (R136). -/
theorem calCompute_ne_normalizeFailed (n : Bool) (M S : Nat) : calCompute n M S ≠ .error .normalizeFailed := by
  cases h : precheck M S with
  | none =>
    obtain ⟨L, hL⟩ := scaleFactor_defined n h
    simp [calCompute, h, hL]
  | some e =>
    rcases precheck_some h with rfl | rfl | rfl <;> simp [calCompute, h]

/-- A failure before the write: no device access; normalisation failure clears `CURRENT_LSB` alone, the others change
nothing (R122 to R124, R129; 60_exceptions.md R171). -/
def calFail (e : Status) (s : State) : State :=
  match e with
  | .normalizeFailed => raise e { s with currentLsb := 0 }
  | _ => raise e s

/-- The write and its outcome (R132, R133, R134). -/
def calPersist (r : Scaled) (s : State) : State :=
  let (st, s1) := memWrite regCalibration (BitVec.ofNat 16 r.calib) s
  match st with
  | .fail => done .writeFailed (BitVec.ofNat 32 r.calib) (BitVec.ofNat 32 r.shifts) s1
  | .ok =>
    done .ok (BitVec.ofNat 32 r.calib) (BitVec.ofNat 32 r.shifts)
      { s1 with
        currentLsb := BitVec.ofNat 32 r.lsb
        maxCurrentC := BitVec.ofNat 32 r.lsb
        shuntC := s.shunt
        cal := BitVec.ofNat 16 r.calib }

/-- `CAL #n` on the operands in `MAXI` and `SHUNT` (R120). -/
def calibrate (n : Bool) (s : State) : State :=
  match calCompute n s.maxi.toNat s.shunt.toNat with
  | .error e => calFail e s
  | .ok r => calPersist r s

/-- `CAL #n` (R120). -/
def execCal (n : Bool) (s : State) : Host.Outcome State Fault Refusal := .next (calibrate n s)

end Sys2Proof.Machine
end

