-- ==== Sys2Proof/Machine/Codec.lean ====
section
/-! DEFINITION. The configuration bit-field codec: `SETMODE`, `SETSVCT`, `SETBVCT`, `SETAVG`, `GETMODE`, `GETSVCT`,
`GETBVCT`, `GETAVG`, `SRST` (40_config_codec.md). -/

namespace Sys2Proof.Machine

/-- `set_field(f, v)` (40_config_codec.md R105). -/
def setField (f : Selector) (v : Nat) (s : State) : State :=
  if v > 7 then done .ok 0 0 s
  else
    let (w, s1) := memRead regConfiguration s
    let w' := cfgInsert w f.field v
    let (st, s2) := memWrite regConfiguration w' s1
    match st with
    | .fail => done .writeFailed (w'.setWidth 32) 0 s2
    | .ok => done .ok (w'.setWidth 32) 0 { s2 with cache := s2.cache.set f (BitVec.ofNat 3 v) }

/-- `get_field(f)` (R110). -/
def getField (f : Selector) (s : State) : State :=
  let (w, s1) := memRead regConfiguration s
  let v := cfgExtract w f.field
  let sel : Sel := v.setWidth 3
  done .ok (v.setWidth 32) (BitVec.ofNat 32 (f.decoded sel)) { s1 with cache := s1.cache.set f sel }

/-- `SRST` (R115): set-field on the reset bit with value 1; no cache field, no calibration state. -/
def softReset (s : State) : State :=
  let (w, s1) := memRead regConfiguration s
  let w' := cfgInsert w .rst 1
  let (st, s2) := memWrite regConfiguration w' s1
  match st with
  | .fail => done .writeFailed (w'.setWidth 32) 0 s2
  | .ok => done .ok (w'.setWidth 32) 0 s2

/-- `SETMODE #imm8`: `set_field(0, imm8)` (R106). -/
def execSetmode (imm8 : Nat) (s : State) : Host.Outcome State Fault Refusal := .next (setField .mode imm8 s)

/-- `SETSVCT #imm8`: `set_field(1, imm8)` (R107). -/
def execSetsvct (imm8 : Nat) (s : State) : Host.Outcome State Fault Refusal := .next (setField .svct imm8 s)

/-- `SETBVCT #imm8`: `set_field(2, imm8)` (R108). -/
def execSetbvct (imm8 : Nat) (s : State) : Host.Outcome State Fault Refusal := .next (setField .bvct imm8 s)

/-- `SETAVG #imm8`: `set_field(3, imm8)` (R109). -/
def execSetavg (imm8 : Nat) (s : State) : Host.Outcome State Fault Refusal := .next (setField .avg imm8 s)

/-- `SRST` (R115). -/
def execSrst (s : State) : Host.Outcome State Fault Refusal := .next (softReset s)

/-- `GETMODE`: `get_field(0)` (R111). -/
def execGetmode (s : State) : Host.Outcome State Fault Refusal := .next (getField .mode s)

/-- `GETSVCT`: `get_field(1)` (R112). -/
def execGetsvct (s : State) : Host.Outcome State Fault Refusal := .next (getField .svct s)

/-- `GETBVCT`: `get_field(2)` (R113). -/
def execGetbvct (s : State) : Host.Outcome State Fault Refusal := .next (getField .bvct s)

/-- `GETAVG`: `get_field(3)` (R114). -/
def execGetavg (s : State) : Host.Outcome State Fault Refusal := .next (getField .avg s)

end Sys2Proof.Machine
end

