-- ==== Sys2Proof/Machine/Timeout.lean ====
section
/-! DEFINITION. The conversion-timeout estimator and the bounded wait: `TMOEST`, `ISRDY`, `WAITT`, `WAITC`
(42_timeout_wait.md). -/

namespace Sys2Proof.Machine

/-- `conv_us(a, b, s, m)` in microseconds (42_timeout_wait.md R151), under the parameters `p` (R150). -/
def convUs (p : Params) (c : CfgCache) : Nat :=
  avgSamples c.avg * (p.measBus.measures c.mode * ctUs c.bvct + p.measShunt.measures c.mode * ctUs c.svct)

/-- `ceil(21 * t / 20000) + 2` for a conversion time `t` (R152). -/
def timeoutOf (t : Nat) : Nat := (21 * t + 19999) / 20000 + 2

/-- `tmo_est(a, b, s, m)` in time units (R152). -/
def tmoEst (p : Params) (c : CfgCache) : Nat := timeoutOf (convUs p c)

/-- `TMOEST`: from the cache as it stands, no device access (R153). -/
def estimate (s : State) : State :=
  done .ok (BitVec.ofNat 32 (tmoEst s.params s.cache)) (BitVec.ofNat 32 (convUs s.params s.cache)) s

/-- `poll()`: one read of the mask/enable register, its conversion-ready flag (R154). -/
def poll (s : State) : Bool × State :=
  let (r, s1) := memRead regMaskEnable s
  (readyFlag r, s1)

/-- `wait_loop` with `polls` polls left and `n` time units elapsed: success, elapsed units, state (R156). -/
def waitLoopFrom : Nat → Nat → State → Bool × Nat × State
  | 0, n, s => (false, n, s)
  | polls + 1, n, s =>
    let (ready, s1) := poll s
    if ready then (true, n, s1) else waitLoopFrom polls (n + 1) (sleep1 s1)

/-- `wait_loop(T)`: "`T + 1` polls at most" (R156, R157). -/
def waitLoop (T : Nat) (s : State) : Bool × Nat × State := waitLoopFrom (T + 1) 0 s

/-- A boolean result in `VALUE`: 1 or 0 (R155, R159). -/
def boolReg (b : Bool) : Reg := if b then 1 else 0

/-- A wait of `T` units and its results; `AUX` is the elapsed count modulo 2^32 (R159). -/
def boundedWait (T : Nat) (s : State) : State :=
  let (v, n, s1) := waitLoop T s
  done .ok (boolReg v) (BitVec.ofNat 32 n) s1

/-- `ISRDY` (R155). -/
def isReady (s : State) : State :=
  let (v, s1) := poll s
  done .ok (boolReg v) 0 s1

/-- `WAITC`: the fast path, then a wait of the estimated timeout (R160). -/
def computedWait (s : State) : State :=
  let (ready, s1) := poll s
  if ready then done .ok 1 0 s1 else boundedWait (tmoEst s1.params s1.cache) s1

/-- `TMOEST` (R153). -/
def execTmoest (s : State) : Host.Outcome State Fault Refusal := .next (estimate s)

/-- `ISRDY` (R155). -/
def execIsrdy (s : State) : Host.Outcome State Fault Refusal := .next (isReady s)

/-- `WAITT`: a wait of `TMO` units (R159). -/
def execWaitt (s : State) : Host.Outcome State Fault Refusal := .next (boundedWait s.tmo.toNat s)

/-- `WAITC` (R160). -/
def execWaitc (s : State) : Host.Outcome State Fault Refusal := .next (computedWait s)

end Sys2Proof.Machine
end

