-- ==== Sys2Proof/Machine/Dispatch.lean ====
section
/-! DEFINITION. Each command's meaning, one arm a constructor. -/

namespace Sys2Proof.Machine

def exec (i : Instr) (s : State) : Host.Outcome State Fault Refusal :=
  match i with
  | .setmode imm8 => Sys2Proof.Machine.execSetmode imm8 s
  | .setsvct imm8 => Sys2Proof.Machine.execSetsvct imm8 s
  | .setbvct imm8 => Sys2Proof.Machine.execSetbvct imm8 s
  | .setavg imm8 => Sys2Proof.Machine.execSetavg imm8 s
  | .srst => Sys2Proof.Machine.execSrst s
  | .getmode => Sys2Proof.Machine.execGetmode s
  | .getsvct => Sys2Proof.Machine.execGetsvct s
  | .getbvct => Sys2Proof.Machine.execGetbvct s
  | .getavg => Sys2Proof.Machine.execGetavg s
  | .cal n => Sys2Proof.Machine.execCal n s
  | .tmoest => Sys2Proof.Machine.execTmoest s
  | .isrdy => Sys2Proof.Machine.execIsrdy s
  | .waitt => Sys2Proof.Machine.execWaitt s
  | .waitc => Sys2Proof.Machine.execWaitc s

end Sys2Proof.Machine
end

