-- ==== Sys2Proof/Machine/HostPort.lean ====
section
/-! DEFINITION. What one input does to the block: a host action on the register port, or a reset (20_memory.md R51,
10_state.md R23, 70_reset_and_hazards.md R190). -/

namespace Sys2Proof.Machine

/-- A host write to `CMD` runs the command whose word is the low half of the data; a word that is no command reports
`ST_ERR_ILLEGAL_CMD` (20_memory.md R51, 30_encoding.md R74). -/
def runCommand (data : Reg) (s : State) : Host.Outcome State Fault Refusal :=
  match decode (commandWord data) with
  | .ok i => exec i s
  | .error _ => .next (illegalCommand s)

/-- One input, to its end. -/
def runInput (a : Input) (s : State) : Host.Outcome State Fault Refusal :=
  match a with
  | .reset => .next (resetBlock s)
  | .hostRead i => .next (hostRead i s)
  | .hostWrite i data => if i = regCmd then runCommand data s else .next (hostWrite i data s)

/-- With no input to come the block stays as it is (log 6). -/
def idle (s : State) : Host.Outcome State Fault Refusal := .next s

end Sys2Proof.Machine
end

