-- ==== Sys2Proof/Machine/Step.lean ====
section
/-! DEFINITION. One step: the next input, to its end (20_memory.md R51, 10_state.md R23). -/

namespace Sys2Proof.Machine

/-- The next input is taken and runs to its end; with none to come the block is idle (log 6). -/
def step (s : State) : Host.Outcome State Fault Refusal :=
  match s.inputs with
  | [] => idle s
  | a :: rest => runInput a (s.withInputs rest)

/-- The next input is the host's write of this command word to `CMD`; nothing else changes (log 6). -/
def State.withFetchWord (s : State) (nbits w : Nat) : State :=
  s.withInputs (commandInput (tableWord nbits w) :: s.inputs)

end Sys2Proof.Machine
end

