-- ==== Sys2Proof/Machine/Assembler.lean ====
section
/-! DEFINITION. The assembler lines and pseudo-instructions as host actions (30_encoding.md R85, R86). -/

namespace Sys2Proof.Machine

/-- The operand registers `WR` may name (30_encoding.md R85). -/
inductive OperandReg where
  | maxi
  | shunt
  | tmo
deriving DecidableEq, Repr

/-- The register number of an operand register (10_state.md R20). -/
def OperandReg.number : OperandReg → RegNo
  | .maxi => 0
  | .shunt => 1
  | .tmo => 2

/-- A line of assembler: a host port action, a command, or a pseudo-instruction. -/
inductive AsmLine where
  /-- `WR <reg>, <value>`. -/
  | wr (reg : OperandReg) (value : Reg)
  /-- `RD <reg>`, of any register. -/
  | rd (i : RegNo)
  /-- A command line. -/
  | command (i : Instr)
  /-- Pseudo `CAL` without an operand. -/
  | calPlain
  /-- Pseudo `CAL.N`. -/
  | calN
  /-- Pseudo `CALIB <uA>, <uOhm>, <n>`. -/
  | calib (uA uOhm : Reg) (n : Bool)
  /-- Pseudo `WAIT <t>`. -/
  | wait (t : Reg)
deriving DecidableEq, Repr

/-- The host write of a command: `x[3] <- word` (R85). -/
def commandLine (i : Instr) : Input := commandInput (encode i)

/-- The host write of an operand register (R85). -/
def writeLine (reg : OperandReg) (value : Reg) : Input := .hostWrite reg.number value

/-- The host actions of a line (R85, R86). -/
def AsmLine.expand : AsmLine → List Input
  | .wr reg value => [writeLine reg value]
  | .rd i => [.hostRead i]
  | .command i => [commandLine i]
  | .calPlain => [commandLine (.cal false)]
  | .calN => [commandLine (.cal true)]
  | .calib uA uOhm n => [writeLine .maxi uA, writeLine .shunt uOhm, commandLine (.cal n)]
  | .wait t => [writeLine .tmo t, commandLine .waitt]

end Sys2Proof.Machine
end

