-- ==== Sys2Proof/Safety.lean ====
section
/-! DEFINITION. The terms the claims use: the invariants of the block's state, the outcomes the rules give, and what a
command's accesses look like from outside. -/

namespace Sys2Proof.Safety

open Sys2Proof.Machine

/-! Invariants. -/

/-- The seven codes `STATUS` may hold; "All other values are never written" (30_encoding.md R84). -/
def statusCodes : List Word16 := [0x0000, 0x8000, 0x8001, 0x8002, 0x8003, 0x8004, 0x80FF]

/-- `STATUS` holds a code. -/
abbrev StatusLegal (s : State) : Prop := s.status ∈ statusCodes

/-- The four calibration registers are all zero (10_state.md R28 (a)). -/
def Uncalibrated (s : State) : Prop :=
  s.currentLsb = 0 ∧ s.maxCurrentC = 0 ∧ s.shuntC = 0 ∧ s.cal = 0

/-- The four calibration registers are those of one successful `CAL` (10_state.md R28 (b), (f); 41_calibration.md R139). -/
def Calibrated (s : State) : Prop :=
  s.currentLsb ≠ 0 ∧ s.currentLsb.toNat < 2 ^ 28 ∧ s.maxCurrentC = s.currentLsb ∧ 1000 ≤ s.shuntC.toNat ∧
    ∃ (n : Bool) (M k : Nat), M < 2 ^ 32 ∧
      calCompute n M s.shuntC.toNat = .ok { lsb := s.currentLsb.toNat, calib := s.cal.toNat, shifts := k }

/-- The calibration state is one or the other (10_state.md R28). -/
def CalibrationConsistent (s : State) : Prop := Uncalibrated s ∨ Calibrated s

/-- The last value the device accepted at address `a` since the block's reset, 0 if none (newest event first). -/
def lastAccepted (a : Addr) : List Event → Word16
  | [] => 0
  | .memWrite _ b v st :: rest => if b = a ∧ st = .ok then v else lastAccepted a rest
  | .reset :: _ => 0
  | .memRead _ _ _ :: rest => lastAccepted a rest
  | .sleep :: rest => lastAccepted a rest
  | .hostRead _ _ :: rest => lastAccepted a rest

/-- `CAL` is "the last `calib` value that the device accepted, 0 if none yet" (10_state.md R27). -/
def CalMirrorsDevice (s : State) : Prop := s.cal = lastAccepted 0x05 s.trace

/-- The invariants together. -/
def Inv (s : State) : Prop := StatusLegal s ∧ CalibrationConsistent s ∧ CalMirrorsDevice s

/-! Outcomes. -/

/-- The block after a read-modify-write of the configuration register that offered `w'`, with cache `c` on success
(40_config_codec.md R105, R115): every other field as before. -/
def rmwOutcome (s : State) (w' : Word16) (c : CfgCache) : State :=
  { s with
    status := if s.nextWrite = .ok then 0x0000 else 0x8004
    value := w'.setWidth 32
    aux := 0
    cache := if s.nextWrite = .ok then c else s.cache
    readAnswers := s.readAnswers.tail
    writeAnswers := s.writeAnswers.tail
    readIndex := s.readIndex + 1
    writeIndex := s.writeIndex + 1
    trace := .memWrite s.params.devAddr 0x00 w' s.nextWrite :: .memRead s.params.devAddr 0x00 (s.readAt 0) :: s.trace }

/-- The block after a read of the configuration register that gave selector `v` with meaning `m` and left cache `c`
(40_config_codec.md R110). -/
def getOutcome (s : State) (v : Sel) (m : Nat) (c : CfgCache) : State :=
  { s with
    status := 0x0000
    value := v.setWidth 32
    aux := BitVec.ofNat 32 m
    cache := c
    readAnswers := s.readAnswers.tail
    readIndex := s.readIndex + 1
    trace := .memRead s.params.devAddr 0x00 (s.readAt 0) :: s.trace }

/-- All three precondition checks of `CAL` pass (41_calibration.md R122 to R124). -/
abbrev ChecksPass (s : State) : Prop :=
  s.maxi.toNat * s.shunt.toNat ≤ 80000000000 ∧ 1000 ≤ s.maxi.toNat ∧ 1000 ≤ s.shunt.toNat

/-- The block after `CAL` has offered `c` to the device, with scale factor `L` and `k` auto-scale steps
(41_calibration.md R132 to R134). -/
def calOutcome (s : State) (L c k : Nat) : State :=
  { s with
    status := if s.nextWrite = .ok then 0x0000 else 0x8004
    value := BitVec.ofNat 32 c
    aux := BitVec.ofNat 32 k
    currentLsb := if s.nextWrite = .ok then BitVec.ofNat 32 L else s.currentLsb
    maxCurrentC := if s.nextWrite = .ok then BitVec.ofNat 32 L else s.maxCurrentC
    shuntC := if s.nextWrite = .ok then s.shunt else s.shuntC
    cal := if s.nextWrite = .ok then BitVec.ofNat 16 c else s.cal
    writeAnswers := s.writeAnswers.tail
    writeIndex := s.writeIndex + 1
    trace := .memWrite s.params.devAddr 0x05 (BitVec.ofNat 16 c) s.nextWrite :: s.trace }

/-- The trace of `n` passes of the wait loop that saw the flag clear: a read of 0x06, then a `Sleep(1)` (newest first). -/
def clearPasses (s : State) : Nat → List Event
  | 0 => []
  | n + 1 => .sleep :: .memRead s.params.devAddr 0x06 (s.readAt n) :: clearPasses s n

/-- The `k`-th coming read has the conversion-ready flag set. -/
abbrev ReadyAt (s : State) (k : Nat) : Prop := (s.readAt k).getLsbD 3 = true

/-- The block after a wait that ended at elapsed count `n`, having seen the flag or not, with `evs` the events of the
wait and `reads` the reads it made (42_timeout_wait.md R156, R159). -/
def waitOutcome (s : State) (ready : Bool) (n reads : Nat) (evs : List Event) : State :=
  { s with
    status := 0x0000
    value := if ready then 1 else 0
    aux := BitVec.ofNat 32 n
    readAnswers := s.readAnswers.drop reads
    readIndex := s.readIndex + reads
    trace := evs ++ s.trace }

/-! The view from outside. -/

/-- The device accesses among events, oldest first: `true` a read, `false` a write, with the register address. -/
def accesses : List Event → List (Bool × Addr)
  | [] => []
  | .memRead _ a _ :: rest => accesses rest ++ [(true, a)]
  | .memWrite _ a _ _ :: rest => accesses rest ++ [(false, a)]
  | .sleep :: rest => accesses rest
  | .hostRead _ _ :: rest => accesses rest
  | .reset :: rest => accesses rest

/-- An event a command may cause under parameters `p`: an access to one of the three constant addresses, in its
direction, with the bus address `DEVADDR`; or a sleep (30_encoding.md R87, 10_state.md R31, R35, R36). -/
def CommandEvent (p : Params) : Event → Prop
  | .memRead dev a _ => dev = p.devAddr ∧ (a = 0x00 ∨ a = 0x06)
  | .memWrite dev a _ _ => dev = p.devAddr ∧ (a = 0x00 ∨ a = 0x05)
  | .sleep => True
  | .hostRead _ _ => False
  | .reset => False

/-- The set command of a selector. -/
def setCommand : Selector → Nat → Instr
  | .mode => .setmode
  | .svct => .setsvct
  | .bvct => .setbvct
  | .avg => .setavg

/-- The get command of a selector. -/
def getCommand : Selector → Instr
  | .mode => .getmode
  | .svct => .getsvct
  | .bvct => .getbvct
  | .avg => .getavg

end Sys2Proof.Safety
end

