-- ==== Sys2Proof/Certificates/Slice0/Obligations.lean ====
section
/-! DEFINITION. The statements about the block, for the provers. -/

open Sys2Proof Sys2Proof.Machine Sys2Proof.Safety

/-! Encoding. -/

/-- R71 with R70, R72, R73: for each row, a word decodes to the row's command exactly when `w AND mask = match`, and the
operand is `w[7:0]` or `w[0]`; `op[1:0]` of a set or get command is the index of its field. -/
def Obligations.DecodeFollowsOpcodeMap : Prop :=
  ∀ w : Word16,
    (∀ v, decode w = .ok (.setmode v) ↔ w &&& 0xFF00 = 0x1000 ∧ v = (w.extractLsb' 0 8).toNat) ∧
    (∀ v, decode w = .ok (.setsvct v) ↔ w &&& 0xFF00 = 0x1100 ∧ v = (w.extractLsb' 0 8).toNat) ∧
    (∀ v, decode w = .ok (.setbvct v) ↔ w &&& 0xFF00 = 0x1200 ∧ v = (w.extractLsb' 0 8).toNat) ∧
    (∀ v, decode w = .ok (.setavg v) ↔ w &&& 0xFF00 = 0x1300 ∧ v = (w.extractLsb' 0 8).toNat) ∧
    (decode w = .ok .srst ↔ w &&& 0xFFFF = 0x1800) ∧
    (decode w = .ok .getmode ↔ w &&& 0xFFFF = 0x2000) ∧
    (decode w = .ok .getsvct ↔ w &&& 0xFFFF = 0x2100) ∧
    (decode w = .ok .getbvct ↔ w &&& 0xFFFF = 0x2200) ∧
    (decode w = .ok .getavg ↔ w &&& 0xFFFF = 0x2300) ∧
    (∀ n, decode w = .ok (.cal n) ↔ w &&& 0xFFFE = 0x3000 ∧ n = w.getLsbD 0) ∧
    (decode w = .ok .tmoest ↔ w &&& 0xFFFF = 0x4000) ∧
    (decode w = .ok .isrdy ↔ w &&& 0xFFFF = 0x4100) ∧
    (decode w = .ok .waitt ↔ w &&& 0xFFFF = 0x4200) ∧
    (decode w = .ok .waitc ↔ w &&& 0xFFFF = 0x4300) ∧
    (∀ (f : Selector) (v : Nat), decode w = .ok (setCommand f v) → f.field.off = 3 * (w.extractLsb' 8 2).toNat) ∧
    (∀ f : Selector, decode w = .ok (getCommand f) → f.field.off = 3 * (w.extractLsb' 8 2).toNat)

/-- Every well-formed command decodes from its word, every operand value included, and no two words stand for one
command (R71; the model's `encode`). -/
def Obligations.DecodeEncodeAgree : Prop :=
  (∀ i : Instr, WellFormed i → decode (encode i) = .ok i) ∧
  (∀ (w : Word16) (i : Instr), decode w = .ok i → WellFormed i ∧ encode i = w)

/-- The words of R106 to R155 as the worked examples write them (R71). -/
def Obligations.WorkedWordsDecode : Prop :=
  decode 0x1003 = .ok (.setmode 3) ∧ decode 0x1107 = .ok (.setsvct 7) ∧ decode 0x1200 = .ok (.setbvct 0) ∧
  decode 0x1303 = .ok (.setavg 3) ∧ decode 0x1800 = .ok .srst ∧ decode 0x2000 = .ok .getmode ∧
  decode 0x3001 = .ok (.cal true) ∧ decode 0x4000 = .ok .tmoest ∧ decode 0x4300 = .ok .waitc

/-- R74: a word that matches no row does nothing but report `ST_ERR_ILLEGAL_CMD`. -/
def Obligations.IllegalWordReportsOnly : Prop :=
  ∀ (s : State) (d : Reg) (rest : List Input),
    let w : Word16 := d.extractLsb' 0 16
    s.inputs = .hostWrite 3 d :: rest →
    (w &&& 0xFF00 ∉ [0x1000, 0x1100, 0x1200, 0x1300] ∧ w &&& 0xFFFE ≠ 0x3000 ∧
      w ∉ [0x1800, 0x2000, 0x2100, 0x2200, 0x2300, 0x4000, 0x4100, 0x4200, 0x4300]) →
    step s = .next { s with inputs := rest, status := 0x80FF, value := 0, aux := 0 }

/-! The host port and the step. -/

/-- A write to `CMD` whose low half decodes runs that command (R23, R51). -/
def Obligations.StepRunsDecodedCommand : Prop :=
  ∀ (s : State) (d : Reg) (rest : List Input) (i : Instr),
    s.inputs = .hostWrite 3 d :: rest → decode (d.extractLsb' 0 16) = .ok i →
    step s = exec i { s with inputs := rest }

/-- R20, R40, R51: a host read returns the register zero-extended and changes no register; the event shows the value. -/
def Obligations.HostReadReturnsRegister : Prop :=
  ∀ (s : State) (i : RegNo) (rest : List Input), s.inputs = .hostRead i :: rest →
    let v : Reg :=
      ([s.maxi, s.shunt, s.tmo, 0, 0#16 ++ s.status, s.value, s.aux, s.currentLsb, s.shuntC, s.maxCurrentC,
        0#16 ++ s.cal, 0#20 ++ (s.cache.avg ++ s.cache.bvct ++ s.cache.svct ++ s.cache.mode),
        0#24 ++ s.params.devAddr, 0, 0, 0] : List Reg).getD i.toNat 0
    step s = .next { s with inputs := rest, trace := .hostRead i v :: s.trace }

/-- R20, R40, R51: a host write stores into an operand register and is ignored by every other register but `CMD`. -/
def Obligations.HostWriteStoresOperandsOnly : Prop :=
  ∀ (s : State) (i : RegNo) (d : Reg) (rest : List Input), s.inputs = .hostWrite i d :: rest → i ≠ 3 →
    step s = .next { s with
      inputs := rest
      maxi := if i = 0 then d else s.maxi
      shunt := if i = 1 then d else s.shunt
      tmo := if i = 2 then d else s.tmo }

/-- With no host action to come the block stays as it is: the model's choice (log 6). -/
def Obligations.IdleBlockStays : Prop :=
  ∀ s : State, s.inputs = [] → step s = .next s

/-- R86: the pseudo-instructions run as their expansions: `CAL`, `CAL.N`, `CALIB`, `WAIT`. -/
def Obligations.PseudoInstructionsExpand : Prop :=
  ∀ (s : State) (rest : List Input) (uA uOhm t : Reg) (n : Bool),
    AsmLine.calPlain.expand = [.hostWrite 3 0x3000] ∧
    AsmLine.calN.expand = [.hostWrite 3 0x3001] ∧
    core.run 3 { s with inputs := (AsmLine.calib uA uOhm n).expand ++ rest } =
      exec (.cal n) { s with inputs := rest, maxi := uA, shunt := uOhm } ∧
    core.run 2 { s with inputs := (AsmLine.wait t).expand ++ rest } =
      exec .waitt { s with inputs := rest, tmo := t }

/-! Reset. -/

/-- R38: after reset every register has its reset value, for every choice of the parameters. That the environment's fields
are empty and its counters 0 is the model's choice (log 5, 6, 8). -/
def Obligations.ResetValues : Prop :=
  ∀ p : Params,
    State.resetWith p =
      { maxi := 0, shunt := 0, tmo := 0, status := 0, value := 0, aux := 0, currentLsb := 0, shuntC := 0,
        maxCurrentC := 0, cal := 0,
        cache := ⟨p.cacheReset.extractLsb' 9 3, p.cacheReset.extractLsb' 6 3, p.cacheReset.extractLsb' 3 3,
          p.cacheReset.extractLsb' 0 3⟩,
        params := p, inputs := [], readAnswers := [], writeAnswers := [], readIndex := 0, writeIndex := 0, trace := [] }

/-- R190 to R192: a reset from any state gives the reset values and makes no device access. That a reset is an input, and
what it leaves of the inputs and answers still to come, is the model's choice (log 9). -/
def Obligations.ResetFromAnyState : Prop :=
  ∀ (s : State) (rest : List Input), s.inputs = .reset :: rest →
    step s = .next { State.resetWith s.params with
      inputs := rest, readAnswers := s.readAnswers, writeAnswers := s.writeAnswers, readIndex := s.readIndex,
      writeIndex := s.writeIndex, trace := .reset :: s.trace }

/-- R204: from reset, with any parameters, `CAL` ends with `ST_ERR_MAXCURRENT_LOW` and `WAITT` polls once. -/
def Obligations.OperandsNotWritten : Prop :=
  ∀ (p : Params) (n : Bool),
    let s := State.resetWith p
    exec (.cal n) s = .next { s with status := 0x8001 } ∧
    (∃ t, exec .waitt s = .next t ∧ t.readIndex = 1 ∧ accesses t.trace = [(true, 0x06)])

/-! The codec. -/

/-- R103, with the masks and offsets of R100: the laws of `cfg_insert` and `cfg_extract`. -/
def Obligations.CodecLaws : Prop :=
  ∀ (w : Word16) (f g : CfgField) (v v' : Nat), v < 2 ^ f.wid → v' < 2 ^ f.wid →
    cfgExtract (cfgInsert w f v) f = BitVec.ofNat 16 v ∧
    (f ≠ g → cfgExtract (cfgInsert w f v) g = cfgExtract w g) ∧
    cfgInsert w f v &&& ~~~f.msk = w &&& ~~~f.msk ∧
    cfgInsert (cfgInsert w f v) f v' = cfgInsert w f v' ∧
    cfgInsert w f (cfgExtract w f).toNat = w ∧
    cfgInsert w .rst 1 = w ||| 0x8000

/-- R100, R101: the offsets, widths and masks of the five fields; extraction masks and shifts, and is the bit slice. -/
def Obligations.ExtractIsBitSlice : Prop :=
  ([CfgField.mode, .svct, .bvct, .avg, .rst].map CfgField.off = [0, 3, 6, 9, 15] ∧
    [CfgField.mode, .svct, .bvct, .avg, .rst].map CfgField.wid = [3, 3, 3, 3, 1]) ∧
  (CfgField.msk .mode = 0x0007 ∧ CfgField.msk .svct = 0x0038 ∧ CfgField.msk .bvct = 0x01C0 ∧
    CfgField.msk .avg = 0x0E00 ∧ CfgField.msk .rst = 0x8000) ∧
  (∀ (w : Word16) (f : CfgField),
    cfgExtract w f = (w &&& f.msk) >>> f.off ∧ (cfgExtract w f).toNat = (w.extractLsb' f.off f.wid).toNat)

/-- R104: packing is the formula, in any order of the five insertions, and unpacking undoes it. -/
def Obligations.PackUnpack : Prop :=
  ∀ (base : Word16) (r a b s m : Nat), r < 2 → a < 8 → b < 8 → s < 8 → m < 8 →
    let word : Word16 := (base &&& 0x7000) ||| (BitVec.ofNat 16 r <<< 15) ||| (BitVec.ofNat 16 a <<< 9) |||
      (BitVec.ofNat 16 b <<< 6) ||| (BitVec.ofNat 16 s <<< 3) ||| BitVec.ofNat 16 m
    cfgPack base r a b s m = word ∧
    (∀ l : List (CfgField × Nat), l.Perm [(.rst, r), (.avg, a), (.bvct, b), (.svct, s), (.mode, m)] →
      l.foldl (fun w p => cfgInsert w p.1 p.2) base = word) ∧
    cfgUnpack word = (BitVec.ofNat 16 r, BitVec.ofNat 16 a, BitVec.ofNat 16 b, BitVec.ofNat 16 s, BitVec.ofNat 16 m) ∧
    cfgUnpack base =
      ((base.extractLsb' 15 1).setWidth 16, (base.extractLsb' 9 3).setWidth 16, (base.extractLsb' 6 3).setWidth 16,
        (base.extractLsb' 3 3).setWidth 16, (base.extractLsb' 0 3).setWidth 16)

/-- R105 to R109: a `SETx` with a selector 0 to 7 offers the word read with that one field replaced and, on `ok`, sets
that one cache field; with 8 to 255 it is ignored. That a term above 255,
which has no encoding, is ignored too is the model's choice (log 11). Everything else is as before. -/
def Obligations.SetFieldCommands : Prop :=
  ∀ (s : State) (v : Nat),
    (7 < v → ∀ f : Selector, exec (setCommand f v) s = .next { s with status := 0x0000, value := 0, aux := 0 }) ∧
    (v ≤ 7 →
      let w := s.readAt 0
      exec (.setmode v) s =
        .next (rmwOutcome s ((w &&& 0xFFF8) ||| BitVec.ofNat 16 v) { s.cache with mode := BitVec.ofNat 3 v }) ∧
      exec (.setsvct v) s =
        .next (rmwOutcome s ((w &&& 0xFFC7) ||| BitVec.ofNat 16 (8 * v)) { s.cache with svct := BitVec.ofNat 3 v }) ∧
      exec (.setbvct v) s =
        .next (rmwOutcome s ((w &&& 0xFE3F) ||| BitVec.ofNat 16 (64 * v)) { s.cache with bvct := BitVec.ofNat 3 v }) ∧
      exec (.setavg v) s =
        .next (rmwOutcome s ((w &&& 0xF1FF) ||| BitVec.ofNat 16 (512 * v)) { s.cache with avg := BitVec.ofNat 3 v })) ∧
    (v < 256 →
      decode (0x1000 ||| BitVec.ofNat 16 v) = .ok (.setmode v) ∧ decode (0x1100 ||| BitVec.ofNat 16 v) = .ok (.setsvct v) ∧
      decode (0x1200 ||| BitVec.ofNat 16 v) = .ok (.setbvct v) ∧ decode (0x1300 ||| BitVec.ofNat 16 v) = .ok (.setavg v))

/-- R110 to R114, R116: a `GETx` returns the selector read and its meaning and resynchronises that one cache field.
Everything else is as before. -/
def Obligations.GetFieldCommands : Prop :=
  ∀ s : State,
    let w := s.readAt 0
    let mode : Sel := w.extractLsb' 0 3
    let svct : Sel := w.extractLsb' 3 3
    let bvct : Sel := w.extractLsb' 6 3
    let avg : Sel := w.extractLsb' 9 3
    let times : List Nat := [140, 204, 332, 588, 1100, 2116, 4156, 8244]
    let samples : List Nat := [1, 4, 16, 64, 128, 256, 512, 1024]
    exec .getmode s = .next (getOutcome s mode (if mode = 4 then 0 else mode.toNat) { s.cache with mode := mode }) ∧
    exec .getsvct s = .next (getOutcome s svct (times.getD svct.toNat 0) { s.cache with svct := svct }) ∧
    exec .getbvct s = .next (getOutcome s bvct (times.getD bvct.toNat 0) { s.cache with bvct := bvct }) ∧
    exec .getavg s = .next (getOutcome s avg (samples.getD avg.toNat 0) { s.cache with avg := avg }) ∧
    decode 0x2000 = .ok .getmode ∧ decode 0x2100 = .ok .getsvct ∧ decode 0x2200 = .ok .getbvct ∧
    decode 0x2300 = .ok .getavg

/-- R115: `SRST` offers the word read with bit 15 set, and leaves the cache and the calibration state. -/
def Obligations.SoftResetCommand : Prop :=
  ∀ s : State, exec .srst s = .next (rmwOutcome s (s.readAt 0 ||| 0x8000) s.cache) ∧ decode 0x1800 = .ok .srst

/-! Calibration. -/

/-- R122, R123, R124: the checks in order, each with its code, no device access and no change of calibration state. -/
def Obligations.CalPreconditionFailures : Prop :=
  ∀ (n : Bool) (s : State),
    let M := s.maxi.toNat
    let S := s.shunt.toNat
    (80000000000 < M * S → exec (.cal n) s = .next { s with status := 0x8000, value := 0, aux := 0 }) ∧
    (M * S ≤ 80000000000 → M < 1000 → exec (.cal n) s = .next { s with status := 0x8001, value := 0, aux := 0 }) ∧
    (M * S ≤ 80000000000 → 1000 ≤ M → S < 1000 →
      exec (.cal n) s = .next { s with status := 0x8002, value := 0, aux := 0 })

/-- R138, with R125 and R130 to R134 for `n = 0`: `c` is the rounded quotient halved, dropping bits,
the least number of times that makes it fit, and `L` is `M` doubled as often. -/
def Obligations.CalPlainResult : Prop :=
  ∀ s : State, ChecksPass s →
    let M := s.maxi.toNat
    let S := s.shunt.toNat
    let c0 := (2 * 167772160000000 + M * S) / (2 * M * S)
    2097 ≤ c0 ∧ c0 ≤ 167772160 ∧
    ∃ k ≤ 12, (∀ j < k, 65535 < c0 / 2 ^ j) ∧ c0 / 2 ^ k ≤ 65535 ∧ (1 ≤ k → 32768 ≤ c0 / 2 ^ k) ∧
      (M = 1000 → S = 1000 → c0 = 167772160 ∧ k = 12 ∧ c0 / 2 ^ k = 40960) ∧
      exec (.cal false) s = .next (calOutcome s (M * 2 ^ k) (c0 / 2 ^ k) k)

/-- R137, with R126 to R128, R130, R132 to R134 for `n = 1`: the scale factor is the least 1-2-5 member not below
`floor(x) + 1`, no auto-scaling happens, and `c` is the rounded quotient. -/
def Obligations.CalNormalizedResult : Prop :=
  ∀ s : State, ChecksPass s →
    let M := s.maxi.toNat
    let S := s.shunt.toNat
    let u := ⌊max ((M : ℚ) / 32768) (78125 / (S : ℚ))⌋₊ + 1
    ∃ m ∈ [1, 2, 5, 10, 20, 50, 100, 200, 500, 1000, 2000, 5000],
      u ≤ m ∧ (∀ m' ∈ [1, 2, 5, 10, 20, 50, 100, 200, 500, 1000, 2000, 5000], u ≤ m' → m ≤ m') ∧
      78126 ≤ m * S ∧ ⌊(5120000000 : ℚ) / ((m : ℚ) * (S : ℚ)) + 1 / 2⌋₊ ≤ 65535 ∧
      exec (.cal true) s =
        .next (calOutcome s (32768 * m) ⌊(5120000000 : ℚ) / ((m : ℚ) * (S : ℚ)) + 1 / 2⌋₊ 0)

/-- R128, R129: `snap125(u)` is the least member that is `>= u`, and there is none exactly above 5000. -/
def Obligations.SnapIsLeastMember : Prop :=
  ∀ u : Nat,
    (∀ m, snap125 u = some m ↔
      m ∈ [1, 2, 5, 10, 20, 50, 100, 200, 500, 1000, 2000, 5000] ∧ u ≤ m ∧
        ∀ m' ∈ [1, 2, 5, 10, 20, 50, 100, 200, 500, 1000, 2000, 5000], u ≤ m' → m ≤ m') ∧
    (snap125 u = none ↔ 5000 < u)

/-- R136: once the checks pass, `u` is at most 2442 and `snap125(u)` is defined, for the rational `u` of R126, R127 and for
the one the machine computes, and no `CAL` ever ends with `ST_ERR_NORMALIZE_FAILED`. -/
def Obligations.NormalizationNeverFails : Prop :=
  (∀ s : State, ChecksPass s →
    let u := ⌊max ((s.maxi.toNat : ℚ) / 32768) (78125 / (s.shunt.toNat : ℚ))⌋₊ + 1
    u ≤ 2442 ∧ (∃ m, snap125 u = some m) ∧ NormalizationDefined s.maxi.toNat s.shunt.toNat) ∧
  (∀ (n : Bool) (s t : State), exec (.cal n) s = .next t → t.status ≠ 0x8003)

/-- R129: what a normalisation failure does, should the sequence be exhausted: `CURRENT_LSB` alone is cleared. -/
def Obligations.NormalizationFailureEffect : Prop :=
  ∀ s : State, calFail .normalizeFailed s = { s with currentLsb := 0, status := 0x8003, value := 0, aux := 0 }

/-- R139: the bounds on the `L` a successful `CAL` stores, in its three cases. -/
def Obligations.CalScaleBounds : Prop :=
  ∀ (n : Bool) (s t : State), exec (.cal n) s = .next t → t.status = 0x0000 →
    0 < t.currentLsb.toNat ∧ t.currentLsb.toNat < 2 ^ 28 ∧
    (n = true → t.currentLsb.toNat ≤ 163840000) ∧
    (n = false → t.aux.toNat = 0 → t.currentLsb = s.maxi ∧ t.currentLsb.toNat ≤ 80000000) ∧
    (n = false → 1 ≤ t.aux.toNat → t.currentLsb.toNat < 5120040)

/-- R133: a success writes the four registers together, `CAL` with the word the device accepted; the scale factor is the
final one, which is the requested current times `2^k` without normalisation, and with it `32768 * m`, above the request,
for `m` the least 1-2-5 member not below `floor(x) + 1` (R126 to R128). -/
def Obligations.FullScaleCoversRequest : Prop :=
  ∀ (n : Bool) (s t : State), exec (.cal n) s = .next t → t.status = 0x0000 →
    t.currentLsb = t.maxCurrentC ∧ t.shuntC = s.shunt ∧ t.value.toNat = t.cal.toNat ∧
    t.trace = .memWrite s.params.devAddr 0x05 t.cal .ok :: s.trace ∧
    (n = false → t.maxCurrentC.toNat = s.maxi.toNat * 2 ^ t.aux.toNat) ∧
    (n = true →
      let u := ⌊max ((s.maxi.toNat : ℚ) / 32768) (78125 / (s.shunt.toNat : ℚ))⌋₊ + 1
      s.maxi.toNat < t.maxCurrentC.toNat ∧
      ∃ m ∈ [1, 2, 5, 10, 20, 50, 100, 200, 500, 1000, 2000, 5000],
        u ≤ m ∧ (∀ m' ∈ [1, 2, 5, 10, 20, 50, 100, 200, 500, 1000, 2000, 5000], u ≤ m' → m ≤ m') ∧
        t.maxCurrentC.toNat = 32768 * m)

/-- R140: the round-trip law, with `q` the exact quotient for the stored registers. -/
def Obligations.RoundTripLaw : Prop :=
  ∀ (n : Bool) (s t : State), exec (.cal n) s = .next t → t.status = 0x0000 →
    let q : ℚ := 167772160000000 / ((t.currentLsb.toNat : ℚ) * (t.shuntC.toNat : ℚ))
    let c : ℚ := t.cal.toNat
    let k := t.aux.toNat
    (k = 0 → -(1 / 2) < c - q ∧ c - q ≤ 1 / 2) ∧
    (1 ≤ k → -(1 + 1 / 2 ^ (k + 1)) < c - q ∧ c - q ≤ 1 / 2 ^ (k + 1))

/-- R141: the word `CAL` offers to the device, and reports in `VALUE`, is at least 2097 without normalisation and at least
25 with; when a check fails nothing is offered. So `CAL` never writes 0. -/
def Obligations.CalibFloor : Prop :=
  ∀ (n : Bool) (s t : State), exec (.cal n) s = .next t →
    (ChecksPass s → ∃ v : Word16,
      t.trace = .memWrite s.params.devAddr 0x05 v s.nextWrite :: s.trace ∧ t.value = v.setWidth 32 ∧
      (n = false → 2097 ≤ v.toNat) ∧ (n = true → 25 ≤ v.toNat)) ∧
    (¬ ChecksPass s → t.trace = s.trace)

/-! The estimator and the waits. -/

/-- R151, R153: `TMOEST` computes from the cache and the parameters, changing only the result registers. -/
def Obligations.EstimateCommand : Prop :=
  ∀ s : State,
    let times : List Nat := [140, 204, 332, 588, 1100, 2116, 4156, 8244]
    let sampleCount := ([1, 4, 16, 64, 128, 256, 512, 1024] : List Nat).getD s.cache.avg.toNat 0
    let busTime := s.params.measBus.measures s.cache.mode * sampleCount * times.getD s.cache.bvct.toNat 0
    let shuntTime := s.params.measShunt.measures s.cache.mode * sampleCount * times.getD s.cache.svct.toNat 0
    exec .tmoest s = .next { s with
      status := 0x0000
      value := BitVec.ofNat 32 (⌈(105 / 100 : ℚ) * ((busTime : ℚ) + (shuntTime : ℚ)) / 1000⌉₊ + 2)
      aux := BitVec.ofNat 32 (busTime + shuntTime) } ∧
    busTime + shuntTime ≤ 16883712 ∧
    decode 0x4000 = .ok .tmoest

/-- R152 with the range of R151: the formula, its range, both ends reached, and no non-zero time lands on a whole number. -/
def Obligations.TimeoutFormula : Prop :=
  ∀ (p : Params) (c : CfgCache),
    tmoEst p c = ⌈(21 : ℚ) * (convUs p c : ℚ) / 20000⌉₊ + 2 ∧
    convUs p c ≤ 16883712 ∧ 2 ≤ tmoEst p c ∧ tmoEst p c ≤ 17730 ∧
    (convUs p c = 0 → tmoEst p c = 2) ∧ (c.mode = 0 ∨ c.mode = 4 → convUs p c = 0) ∧
    (convUs p c ≠ 0 → (21 * convUs p c) % 20000 ≠ 0) ∧
    (c = ⟨7, 7, 7, c.mode⟩ → p.measBus.measures c.mode = 1 → p.measShunt.measures c.mode = 1 → tmoEst p c = 17730)

/-- R83, R150: `MEAS_BUS` and `MEAS_SHUNT` are 0 or 1, and 0 at modes 0 and 4 whatever the parameters. -/
def Obligations.PowerDownMeasuresNothing : Prop :=
  ∀ (t : ModeTable) (m : Sel), t.measures m ≤ 1 ∧ (m = 0 ∨ m = 4 → t.measures m = 0)

/-- R154, R155: `ISRDY` reads 0x06 once and returns bit 3. -/
def Obligations.ReadyCommand : Prop :=
  ∀ s : State,
    exec .isrdy s = .next { s with
      status := 0x0000
      value := if (s.readAt 0) &&& 0x0008 = 0x0008 then 1 else 0
      aux := 0
      readAnswers := s.readAnswers.tail
      readIndex := s.readIndex + 1
      trace := .memRead s.params.devAddr 0x06 (s.readAt 0) :: s.trace } ∧
    decode 0x4100 = .ok .isrdy

/-- R156, R159: `WAITT` succeeds at the first poll, of at most `TMO + 1`, that sees the flag, else times out. -/
def Obligations.CallerTimeoutWait : Prop :=
  ∀ s : State,
    let T := s.tmo.toNat
    (∀ n ≤ T, (∀ k < n, ¬ ReadyAt s k) → ReadyAt s n →
      exec .waitt s = .next (waitOutcome s true n (n + 1)
        (.memRead s.params.devAddr 0x06 (s.readAt n) :: clearPasses s n))) ∧
    ((∀ k ≤ T, ¬ ReadyAt s k) →
      exec .waitt s = .next (waitOutcome s false (T + 1) (T + 1) (clearPasses s (T + 1)))) ∧
    decode 0x4200 = .ok .waitt

/-- R160: `WAITC` returns at once when ready, else waits the estimated timeout of the cache; the loop's polls are the
reads after the first. -/
def Obligations.ComputedTimeoutWait : Prop :=
  ∀ s : State,
    let T := tmoEst s.params s.cache
    let first : Event := .memRead s.params.devAddr 0x06 (s.readAt 0)
    let s1 : State := { s with
      readAnswers := s.readAnswers.tail, readIndex := s.readIndex + 1, trace := first :: s.trace }
    (ReadyAt s 0 → exec .waitc s = .next (waitOutcome s true 0 1 [first])) ∧
    (¬ ReadyAt s 0 → ∀ n ≤ T, (∀ k < n, ¬ ReadyAt s (k + 1)) → ReadyAt s (n + 1) →
      exec .waitc s = .next (waitOutcome s1 true n (n + 1)
        (.memRead s.params.devAddr 0x06 (s.readAt (n + 1)) :: clearPasses s1 n))) ∧
    (¬ ReadyAt s 0 → (∀ k ≤ T, ¬ ReadyAt s (k + 1)) →
      exec .waitc s = .next (waitOutcome s1 false (T + 1) (T + 1) (clearPasses s1 (T + 1)))) ∧
    decode 0x4300 = .ok .waitc

/-- R158: a wait ends after at most `T + 1` polls of its loop and `T + 1` sleeps, `T` being `TMO` for `WAITT` and the
estimate for `WAITC`, whose fast path polls once more; the greatest `T` is `2^32 - 1` and 17730. -/
def Obligations.WaitsAreBounded : Prop :=
  ∀ s : State,
    (∃ t evs, exec .waitt s = .next t ∧ t.trace = evs ++ s.trace ∧
      (accesses evs).length ≤ s.tmo.toNat + 1 ∧ evs.count .sleep ≤ s.tmo.toNat + 1) ∧
    (∃ t evs, exec .waitc s = .next t ∧ t.trace = evs ++ s.trace ∧
      (accesses evs).length ≤ tmoEst s.params s.cache + 2 ∧ evs.count .sleep ≤ tmoEst s.params s.cache + 1) ∧
    s.tmo.toNat ≤ 2 ^ 32 - 1 ∧ tmoEst s.params s.cache ≤ 17730

/-- R161: what `ISRDY`, `WAITT`, `WAITC` report depends only on the device's answers, on `TMO` (`WAITT`) and on the cache
(`WAITC`, with the parameters of the estimator); none writes the cache or the calibration state. -/
def Obligations.WaiterKeepsNothing : Prop :=
  (∀ s s' t t' : State, (∀ k, s.readAt k = s'.readAt k) →
    (exec .isrdy s = .next t → exec .isrdy s' = .next t' →
      (t.status, t.value, t.aux) = (t'.status, t'.value, t'.aux)) ∧
    (s.tmo = s'.tmo → exec .waitt s = .next t → exec .waitt s' = .next t' →
      (t.status, t.value, t.aux) = (t'.status, t'.value, t'.aux)) ∧
    (s.cache = s'.cache → s.params = s'.params → exec .waitc s = .next t → exec .waitc s' = .next t' →
      (t.status, t.value, t.aux) = (t'.status, t'.value, t'.aux))) ∧
  (∀ i ∈ [Instr.isrdy, .waitt, .waitc], ∀ s t : State, exec i s = .next t →
    t.cache = s.cache ∧ t.currentLsb = s.currentLsb ∧ t.shuntC = s.shuntC ∧ t.maxCurrentC = s.maxCurrentC ∧
      t.cal = s.cal)

/-! Whole-machine rules. -/

/-- R170: no step faults, refuses or hangs, in any state. -/
def Obligations.EveryStepAnswersNext : Prop :=
  ∀ s : State, ∃ t, step s = .next t

/-- R21: no command changes an operand register; nor the parameters (R31) nor the inputs still to come. -/
def Obligations.CommandsKeepOperands : Prop :=
  ∀ (i : Instr) (s t : State), exec i s = .next t →
    t.maxi = s.maxi ∧ t.shunt = s.shunt ∧ t.tmo = s.tmo ∧ t.params = s.params ∧ t.inputs = s.inputs

/-- R28 (e): no command but `CAL` writes a calibration register. -/
def Obligations.CalibrationWrittenByCalOnly : Prop :=
  ∀ (i : Instr) (s t : State), exec i s = .next t → (∀ n, i ≠ .cal n) →
    t.currentLsb = s.currentLsb ∧ t.shuntC = s.shuntC ∧ t.maxCurrentC = s.maxCurrentC ∧ t.cal = s.cal

/-- R29: a cache field is written only by the `SETx` and the `GETx` of its field. -/
def Obligations.CacheFieldWrittenByItsCommands : Prop :=
  ∀ (f : Selector) (i : Instr) (s t : State), exec i s = .next t → (∀ v, i ≠ setCommand f v) → i ≠ getCommand f →
    t.cache.get f = s.cache.get f

/-- R30: after a `SETx` with `ok` the field is the value written, after one with `fail` it is unchanged; after a `GETx`
it is what the device returned. -/
def Obligations.CacheFollowsDevice : Prop :=
  ∀ (f : Selector) (v : Nat) (s t : State), v ≤ 7 →
    (exec (setCommand f v) s = .next t →
      (s.nextWrite = .ok → t.cache.get f = BitVec.ofNat 3 v ∧
        ∃ dev w rest, t.trace = .memWrite dev 0x00 w .ok :: rest ∧ (cfgExtract w f.field).toNat = v) ∧
      (s.nextWrite = .fail → t.cache = s.cache)) ∧
    (exec (getCommand f) s = .next t → (t.cache.get f).toNat = (cfgExtract (s.readAt 0) f.field).toNat)

/-- R171, R84, R136: which codes each command can report (0x8003 is unreachable from `CAL`, R136); `STATUS` always holds one of them afterwards. -/
def Obligations.CommandStatusCodes : Prop :=
  ∀ (i : Instr) (s t : State), exec i s = .next t →
    t.status ∈ (match i with
      | .setmode _ | .setsvct _ | .setbvct _ | .setavg _ | .srst => [0x0000, 0x8004]
      | .cal _ => [0x0000, 0x8000, 0x8001, 0x8002, 0x8004]
      | .getmode | .getsvct | .getbvct | .getavg | .tmoest | .isrdy | .waitt | .waitc => ([0x0000] : List Word16))

/-- R28 (c), R30, R176: a command that reports a failure leaves the cache and the calibration state as they were; the one
failure that would not, of normalisation, is unreachable from `CAL` (R136). -/
def Obligations.FailureLeavesState : Prop :=
  ∀ (i : Instr) (s t : State), exec i s = .next t → t.status.getLsbD 15 = true →
    t.cache = s.cache ∧ t.currentLsb = s.currentLsb ∧ t.shuntC = s.shuntC ∧ t.maxCurrentC = s.maxCurrentC ∧
      t.cal = s.cal

/-- R87 with R31, R35, R36: a command accesses only 0x00, 0x05, 0x06, never reads 0x05, never writes 0x06, and hands the
transport `DEVADDR`; it erases nothing of what happened before. -/
def Obligations.CommandsStayOnThreeRegisters : Prop :=
  ∀ (i : Instr) (s t : State), exec i s = .next t →
    ∃ evs, t.trace = evs ++ s.trace ∧ ∀ e ∈ evs, CommandEvent s.params e

/-- R60: the device accesses of each command, in order, and of an illegal word. That a SETx term above 255, which has no
encoding, makes none is the model's choice (log 11). -/
def Obligations.AccessesOfEachCommand : Prop :=
  (∀ (i : Instr) (s t : State), exec i s = .next t → ∃ evs, t.trace = evs ++ s.trace ∧
    (match i with
      | .setmode v | .setsvct v | .setbvct v | .setavg v =>
        accesses evs = if v ≤ 7 then [(true, 0x00), (false, 0x00)] else []
      | .getmode | .getsvct | .getbvct | .getavg => accesses evs = [(true, 0x00)]
      | .srst => accesses evs = [(true, 0x00), (false, 0x00)]
      | .cal _ => accesses evs = if ChecksPass s then [(false, 0x05)] else []
      | .tmoest => evs = []
      | .isrdy => accesses evs = [(true, 0x06)]
      | .waitt => ∃ p, 1 ≤ p ∧ p ≤ s.tmo.toNat + 1 ∧ accesses evs = List.replicate p (true, 0x06)
      | .waitc =>
        (ReadyAt s 0 → accesses evs = [(true, 0x06)]) ∧
        (¬ ReadyAt s 0 → ∃ p, 1 ≤ p ∧ p ≤ tmoEst s.params s.cache + 1 ∧
          accesses evs = List.replicate (1 + p) (true, 0x06)))) ∧
  (∀ (s t : State) (d : Reg) (e : DecodeError), decode (commandWord d) = .error e → runCommand d s = .next t →
    t.trace = s.trace)

/-- R56, R57, R58: a read is an address transaction and a two-byte answer, a write is one transaction, most significant
byte first, and the two bytes assemble to the value. -/
def Obligations.BusBytesAreBigEndian : Prop :=
  ∀ (dev a : Addr) (v : Word16) (st : TransportStatus),
    (Event.memRead dev a v).busTransactions =
      [.send dev [a], .receive dev [v.extractLsb' 8 8, v.extractLsb' 0 8]] ∧
    (Event.memWrite dev a v st).busTransactions = [.send dev [a, v.extractLsb' 8 8, v.extractLsb' 0 8]] ∧
    assembleBytes (v.extractLsb' 8 8) (v.extractLsb' 0 8) = v ∧
    (∀ hi lo : BitVec 8, (assembleBytes hi lo).toNat = hi.toNat * 256 + lo.toNat)

/-! Invariants. -/

/-- R84, R27, R28: the invariants hold after reset, whatever the parameters. -/
def Obligations.InvariantsHoldAtReset : Prop :=
  ∀ p : Params, Inv (State.resetWith p)

/-- R84: every step keeps `STATUS` at one of the seven codes. -/
def Obligations.StepKeepsStatusLegal : Prop :=
  ∀ s t : State, StatusLegal s → step s = .next t → StatusLegal t

/-- R28: every step keeps the calibration registers all zero or those of one successful `CAL`. -/
def Obligations.StepKeepsCalibrationConsistent : Prop :=
  ∀ s t : State, CalibrationConsistent s → step s = .next t → CalibrationConsistent t

/-- R27: every step keeps `CAL` equal to the last value the device accepted at 0x05 since reset. -/
def Obligations.StepKeepsCalMirror : Prop :=
  ∀ s t : State, CalMirrorsDevice s → step s = .next t → CalMirrorsDevice t

/-- R31: no step changes the parameters, `DEVADDR` among them. -/
def Obligations.StepKeepsParameters : Prop :=
  ∀ s t : State, step s = .next t → t.params = s.params

/-- R171, R27, R28, R84 over runs: from every state with the invariants, a run of any length ends in a next state that
has them. -/
def Obligations.EveryRunKeepsInvariants : Prop :=
  ∀ (k : Nat) (s : State), Inv s → ∃ t, core.run k s = .next t ∧ Inv t
end

