-- ==== Sys2Proof/Laws/State.lean ====
section
/-! SUPPORT. One lemma for each field and each named update of the state. -/

namespace Sys2Proof.Machine

/-! `logEvent`. -/

@[simp] theorem logEvent_maxi (s : State) (e : Event) : (s.logEvent e).maxi = s.maxi := rfl
@[simp] theorem logEvent_shunt (s : State) (e : Event) : (s.logEvent e).shunt = s.shunt := rfl
@[simp] theorem logEvent_tmo (s : State) (e : Event) : (s.logEvent e).tmo = s.tmo := rfl
@[simp] theorem logEvent_status (s : State) (e : Event) : (s.logEvent e).status = s.status := rfl
@[simp] theorem logEvent_value (s : State) (e : Event) : (s.logEvent e).value = s.value := rfl
@[simp] theorem logEvent_aux (s : State) (e : Event) : (s.logEvent e).aux = s.aux := rfl
@[simp] theorem logEvent_currentLsb (s : State) (e : Event) : (s.logEvent e).currentLsb = s.currentLsb := rfl
@[simp] theorem logEvent_shuntC (s : State) (e : Event) : (s.logEvent e).shuntC = s.shuntC := rfl
@[simp] theorem logEvent_maxCurrentC (s : State) (e : Event) : (s.logEvent e).maxCurrentC = s.maxCurrentC := rfl
@[simp] theorem logEvent_cal (s : State) (e : Event) : (s.logEvent e).cal = s.cal := rfl
@[simp] theorem logEvent_cache (s : State) (e : Event) : (s.logEvent e).cache = s.cache := rfl
@[simp] theorem logEvent_params (s : State) (e : Event) : (s.logEvent e).params = s.params := rfl
@[simp] theorem logEvent_inputs (s : State) (e : Event) : (s.logEvent e).inputs = s.inputs := rfl
@[simp] theorem logEvent_readAnswers (s : State) (e : Event) : (s.logEvent e).readAnswers = s.readAnswers := rfl
@[simp] theorem logEvent_writeAnswers (s : State) (e : Event) : (s.logEvent e).writeAnswers = s.writeAnswers := rfl
@[simp] theorem logEvent_readIndex (s : State) (e : Event) : (s.logEvent e).readIndex = s.readIndex := rfl
@[simp] theorem logEvent_writeIndex (s : State) (e : Event) : (s.logEvent e).writeIndex = s.writeIndex := rfl
@[simp] theorem logEvent_trace (s : State) (e : Event) : (s.logEvent e).trace = e :: s.trace := rfl

/-! `withInputs`. -/

@[simp] theorem withInputs_maxi (s : State) (l : List Input) : (s.withInputs l).maxi = s.maxi := rfl
@[simp] theorem withInputs_shunt (s : State) (l : List Input) : (s.withInputs l).shunt = s.shunt := rfl
@[simp] theorem withInputs_tmo (s : State) (l : List Input) : (s.withInputs l).tmo = s.tmo := rfl
@[simp] theorem withInputs_status (s : State) (l : List Input) : (s.withInputs l).status = s.status := rfl
@[simp] theorem withInputs_value (s : State) (l : List Input) : (s.withInputs l).value = s.value := rfl
@[simp] theorem withInputs_aux (s : State) (l : List Input) : (s.withInputs l).aux = s.aux := rfl
@[simp] theorem withInputs_currentLsb (s : State) (l : List Input) : (s.withInputs l).currentLsb = s.currentLsb := rfl
@[simp] theorem withInputs_shuntC (s : State) (l : List Input) : (s.withInputs l).shuntC = s.shuntC := rfl
@[simp] theorem withInputs_maxCurrentC (s : State) (l : List Input) : (s.withInputs l).maxCurrentC = s.maxCurrentC := rfl
@[simp] theorem withInputs_cal (s : State) (l : List Input) : (s.withInputs l).cal = s.cal := rfl
@[simp] theorem withInputs_cache (s : State) (l : List Input) : (s.withInputs l).cache = s.cache := rfl
@[simp] theorem withInputs_params (s : State) (l : List Input) : (s.withInputs l).params = s.params := rfl
@[simp] theorem withInputs_inputs (s : State) (l : List Input) : (s.withInputs l).inputs = l := rfl
@[simp] theorem withInputs_readAnswers (s : State) (l : List Input) : (s.withInputs l).readAnswers = s.readAnswers := rfl
@[simp] theorem withInputs_writeAnswers (s : State) (l : List Input) : (s.withInputs l).writeAnswers = s.writeAnswers := rfl
@[simp] theorem withInputs_readIndex (s : State) (l : List Input) : (s.withInputs l).readIndex = s.readIndex := rfl
@[simp] theorem withInputs_writeIndex (s : State) (l : List Input) : (s.withInputs l).writeIndex = s.writeIndex := rfl
@[simp] theorem withInputs_trace (s : State) (l : List Input) : (s.withInputs l).trace = s.trace := rfl

/-! `memReadState`. -/

@[simp] theorem memReadState_maxi (a : Addr) (s : State) : (memReadState a s).maxi = s.maxi := rfl
@[simp] theorem memReadState_shunt (a : Addr) (s : State) : (memReadState a s).shunt = s.shunt := rfl
@[simp] theorem memReadState_tmo (a : Addr) (s : State) : (memReadState a s).tmo = s.tmo := rfl
@[simp] theorem memReadState_status (a : Addr) (s : State) : (memReadState a s).status = s.status := rfl
@[simp] theorem memReadState_value (a : Addr) (s : State) : (memReadState a s).value = s.value := rfl
@[simp] theorem memReadState_aux (a : Addr) (s : State) : (memReadState a s).aux = s.aux := rfl
@[simp] theorem memReadState_currentLsb (a : Addr) (s : State) : (memReadState a s).currentLsb = s.currentLsb := rfl
@[simp] theorem memReadState_shuntC (a : Addr) (s : State) : (memReadState a s).shuntC = s.shuntC := rfl
@[simp] theorem memReadState_maxCurrentC (a : Addr) (s : State) : (memReadState a s).maxCurrentC = s.maxCurrentC := rfl
@[simp] theorem memReadState_cal (a : Addr) (s : State) : (memReadState a s).cal = s.cal := rfl
@[simp] theorem memReadState_cache (a : Addr) (s : State) : (memReadState a s).cache = s.cache := rfl
@[simp] theorem memReadState_params (a : Addr) (s : State) : (memReadState a s).params = s.params := rfl
@[simp] theorem memReadState_inputs (a : Addr) (s : State) : (memReadState a s).inputs = s.inputs := rfl
@[simp] theorem memReadState_readAnswers (a : Addr) (s : State) : (memReadState a s).readAnswers = s.readAnswers.tail := rfl
@[simp] theorem memReadState_writeAnswers (a : Addr) (s : State) : (memReadState a s).writeAnswers = s.writeAnswers := rfl
@[simp] theorem memReadState_readIndex (a : Addr) (s : State) : (memReadState a s).readIndex = s.readIndex + 1 := rfl
@[simp] theorem memReadState_writeIndex (a : Addr) (s : State) : (memReadState a s).writeIndex = s.writeIndex := rfl
@[simp] theorem memReadState_trace (a : Addr) (s : State) : (memReadState a s).trace = .memRead s.params.devAddr a (memReadValue s) :: s.trace := rfl

/-! `memWriteState`. -/

@[simp] theorem memWriteState_maxi (a : Addr) (v : Word16) (s : State) : (memWriteState a v s).maxi = s.maxi := rfl
@[simp] theorem memWriteState_shunt (a : Addr) (v : Word16) (s : State) : (memWriteState a v s).shunt = s.shunt := rfl
@[simp] theorem memWriteState_tmo (a : Addr) (v : Word16) (s : State) : (memWriteState a v s).tmo = s.tmo := rfl
@[simp] theorem memWriteState_status (a : Addr) (v : Word16) (s : State) : (memWriteState a v s).status = s.status := rfl
@[simp] theorem memWriteState_value (a : Addr) (v : Word16) (s : State) : (memWriteState a v s).value = s.value := rfl
@[simp] theorem memWriteState_aux (a : Addr) (v : Word16) (s : State) : (memWriteState a v s).aux = s.aux := rfl
@[simp] theorem memWriteState_currentLsb (a : Addr) (v : Word16) (s : State) : (memWriteState a v s).currentLsb = s.currentLsb := rfl
@[simp] theorem memWriteState_shuntC (a : Addr) (v : Word16) (s : State) : (memWriteState a v s).shuntC = s.shuntC := rfl
@[simp] theorem memWriteState_maxCurrentC (a : Addr) (v : Word16) (s : State) : (memWriteState a v s).maxCurrentC = s.maxCurrentC := rfl
@[simp] theorem memWriteState_cal (a : Addr) (v : Word16) (s : State) : (memWriteState a v s).cal = s.cal := rfl
@[simp] theorem memWriteState_cache (a : Addr) (v : Word16) (s : State) : (memWriteState a v s).cache = s.cache := rfl
@[simp] theorem memWriteState_params (a : Addr) (v : Word16) (s : State) : (memWriteState a v s).params = s.params := rfl
@[simp] theorem memWriteState_inputs (a : Addr) (v : Word16) (s : State) : (memWriteState a v s).inputs = s.inputs := rfl
@[simp] theorem memWriteState_readAnswers (a : Addr) (v : Word16) (s : State) : (memWriteState a v s).readAnswers = s.readAnswers := rfl
@[simp] theorem memWriteState_writeAnswers (a : Addr) (v : Word16) (s : State) : (memWriteState a v s).writeAnswers = s.writeAnswers.tail := rfl
@[simp] theorem memWriteState_readIndex (a : Addr) (v : Word16) (s : State) : (memWriteState a v s).readIndex = s.readIndex := rfl
@[simp] theorem memWriteState_writeIndex (a : Addr) (v : Word16) (s : State) : (memWriteState a v s).writeIndex = s.writeIndex + 1 := rfl
@[simp] theorem memWriteState_trace (a : Addr) (v : Word16) (s : State) : (memWriteState a v s).trace = .memWrite s.params.devAddr a v s.nextWrite :: s.trace := rfl

/-! `sleep1`. -/

@[simp] theorem sleep1_maxi (s : State) : (sleep1 s).maxi = s.maxi := rfl
@[simp] theorem sleep1_shunt (s : State) : (sleep1 s).shunt = s.shunt := rfl
@[simp] theorem sleep1_tmo (s : State) : (sleep1 s).tmo = s.tmo := rfl
@[simp] theorem sleep1_status (s : State) : (sleep1 s).status = s.status := rfl
@[simp] theorem sleep1_value (s : State) : (sleep1 s).value = s.value := rfl
@[simp] theorem sleep1_aux (s : State) : (sleep1 s).aux = s.aux := rfl
@[simp] theorem sleep1_currentLsb (s : State) : (sleep1 s).currentLsb = s.currentLsb := rfl
@[simp] theorem sleep1_shuntC (s : State) : (sleep1 s).shuntC = s.shuntC := rfl
@[simp] theorem sleep1_maxCurrentC (s : State) : (sleep1 s).maxCurrentC = s.maxCurrentC := rfl
@[simp] theorem sleep1_cal (s : State) : (sleep1 s).cal = s.cal := rfl
@[simp] theorem sleep1_cache (s : State) : (sleep1 s).cache = s.cache := rfl
@[simp] theorem sleep1_params (s : State) : (sleep1 s).params = s.params := rfl
@[simp] theorem sleep1_inputs (s : State) : (sleep1 s).inputs = s.inputs := rfl
@[simp] theorem sleep1_readAnswers (s : State) : (sleep1 s).readAnswers = s.readAnswers := rfl
@[simp] theorem sleep1_writeAnswers (s : State) : (sleep1 s).writeAnswers = s.writeAnswers := rfl
@[simp] theorem sleep1_readIndex (s : State) : (sleep1 s).readIndex = s.readIndex := rfl
@[simp] theorem sleep1_writeIndex (s : State) : (sleep1 s).writeIndex = s.writeIndex := rfl
@[simp] theorem sleep1_trace (s : State) : (sleep1 s).trace = .sleep :: s.trace := rfl

/-! `done`. -/

@[simp] theorem done_maxi (st : Status) (v a : Reg) (s : State) : (done st v a s).maxi = s.maxi := rfl
@[simp] theorem done_shunt (st : Status) (v a : Reg) (s : State) : (done st v a s).shunt = s.shunt := rfl
@[simp] theorem done_tmo (st : Status) (v a : Reg) (s : State) : (done st v a s).tmo = s.tmo := rfl
@[simp] theorem done_status (st : Status) (v a : Reg) (s : State) : (done st v a s).status = st.code := rfl
@[simp] theorem done_value (st : Status) (v a : Reg) (s : State) : (done st v a s).value = v := rfl
@[simp] theorem done_aux (st : Status) (v a : Reg) (s : State) : (done st v a s).aux = a := rfl
@[simp] theorem done_currentLsb (st : Status) (v a : Reg) (s : State) : (done st v a s).currentLsb = s.currentLsb := rfl
@[simp] theorem done_shuntC (st : Status) (v a : Reg) (s : State) : (done st v a s).shuntC = s.shuntC := rfl
@[simp] theorem done_maxCurrentC (st : Status) (v a : Reg) (s : State) : (done st v a s).maxCurrentC = s.maxCurrentC := rfl
@[simp] theorem done_cal (st : Status) (v a : Reg) (s : State) : (done st v a s).cal = s.cal := rfl
@[simp] theorem done_cache (st : Status) (v a : Reg) (s : State) : (done st v a s).cache = s.cache := rfl
@[simp] theorem done_params (st : Status) (v a : Reg) (s : State) : (done st v a s).params = s.params := rfl
@[simp] theorem done_inputs (st : Status) (v a : Reg) (s : State) : (done st v a s).inputs = s.inputs := rfl
@[simp] theorem done_readAnswers (st : Status) (v a : Reg) (s : State) : (done st v a s).readAnswers = s.readAnswers := rfl
@[simp] theorem done_writeAnswers (st : Status) (v a : Reg) (s : State) : (done st v a s).writeAnswers = s.writeAnswers := rfl
@[simp] theorem done_readIndex (st : Status) (v a : Reg) (s : State) : (done st v a s).readIndex = s.readIndex := rfl
@[simp] theorem done_writeIndex (st : Status) (v a : Reg) (s : State) : (done st v a s).writeIndex = s.writeIndex := rfl
@[simp] theorem done_trace (st : Status) (v a : Reg) (s : State) : (done st v a s).trace = s.trace := rfl

/-! `raise`. -/

@[simp] theorem raise_maxi (st : Status) (s : State) : (raise st s).maxi = s.maxi := rfl
@[simp] theorem raise_shunt (st : Status) (s : State) : (raise st s).shunt = s.shunt := rfl
@[simp] theorem raise_tmo (st : Status) (s : State) : (raise st s).tmo = s.tmo := rfl
@[simp] theorem raise_status (st : Status) (s : State) : (raise st s).status = st.code := rfl
@[simp] theorem raise_value (st : Status) (s : State) : (raise st s).value = 0 := rfl
@[simp] theorem raise_aux (st : Status) (s : State) : (raise st s).aux = 0 := rfl
@[simp] theorem raise_currentLsb (st : Status) (s : State) : (raise st s).currentLsb = s.currentLsb := rfl
@[simp] theorem raise_shuntC (st : Status) (s : State) : (raise st s).shuntC = s.shuntC := rfl
@[simp] theorem raise_maxCurrentC (st : Status) (s : State) : (raise st s).maxCurrentC = s.maxCurrentC := rfl
@[simp] theorem raise_cal (st : Status) (s : State) : (raise st s).cal = s.cal := rfl
@[simp] theorem raise_cache (st : Status) (s : State) : (raise st s).cache = s.cache := rfl
@[simp] theorem raise_params (st : Status) (s : State) : (raise st s).params = s.params := rfl
@[simp] theorem raise_inputs (st : Status) (s : State) : (raise st s).inputs = s.inputs := rfl
@[simp] theorem raise_readAnswers (st : Status) (s : State) : (raise st s).readAnswers = s.readAnswers := rfl
@[simp] theorem raise_writeAnswers (st : Status) (s : State) : (raise st s).writeAnswers = s.writeAnswers := rfl
@[simp] theorem raise_readIndex (st : Status) (s : State) : (raise st s).readIndex = s.readIndex := rfl
@[simp] theorem raise_writeIndex (st : Status) (s : State) : (raise st s).writeIndex = s.writeIndex := rfl
@[simp] theorem raise_trace (st : Status) (s : State) : (raise st s).trace = s.trace := rfl

/-! `resetBlock`. -/

@[simp] theorem resetBlock_maxi (s : State) : (resetBlock s).maxi = 0 := rfl
@[simp] theorem resetBlock_shunt (s : State) : (resetBlock s).shunt = 0 := rfl
@[simp] theorem resetBlock_tmo (s : State) : (resetBlock s).tmo = 0 := rfl
@[simp] theorem resetBlock_status (s : State) : (resetBlock s).status = 0 := rfl
@[simp] theorem resetBlock_value (s : State) : (resetBlock s).value = 0 := rfl
@[simp] theorem resetBlock_aux (s : State) : (resetBlock s).aux = 0 := rfl
@[simp] theorem resetBlock_currentLsb (s : State) : (resetBlock s).currentLsb = 0 := rfl
@[simp] theorem resetBlock_shuntC (s : State) : (resetBlock s).shuntC = 0 := rfl
@[simp] theorem resetBlock_maxCurrentC (s : State) : (resetBlock s).maxCurrentC = 0 := rfl
@[simp] theorem resetBlock_cal (s : State) : (resetBlock s).cal = 0 := rfl
@[simp] theorem resetBlock_cache (s : State) : (resetBlock s).cache = CfgCache.ofWord s.params.cacheReset := rfl
@[simp] theorem resetBlock_params (s : State) : (resetBlock s).params = s.params := rfl
@[simp] theorem resetBlock_inputs (s : State) : (resetBlock s).inputs = s.inputs := rfl
@[simp] theorem resetBlock_readAnswers (s : State) : (resetBlock s).readAnswers = s.readAnswers := rfl
@[simp] theorem resetBlock_writeAnswers (s : State) : (resetBlock s).writeAnswers = s.writeAnswers := rfl
@[simp] theorem resetBlock_readIndex (s : State) : (resetBlock s).readIndex = s.readIndex := rfl
@[simp] theorem resetBlock_writeIndex (s : State) : (resetBlock s).writeIndex = s.writeIndex := rfl
@[simp] theorem resetBlock_trace (s : State) : (resetBlock s).trace = .reset :: s.trace := rfl

end Sys2Proof.Machine
end

