-- ==== Sys2Proof/Laws/Ops.lean ====
section
/-! SUPPORT. What the shared operations of the transport, the cache and the host port do, said once. -/

namespace Sys2Proof.Machine

/-! The device's answers. -/

/-- A read uses up one answer: the later ones move up by one. -/
@[simp] theorem memReadState_readAt (a : Addr) (s : State) (k : Nat) :
    (memReadState a s).readAt k = s.readAt (k + 1) := by
  rcases s with ⟨_, _, _, _, _, _, _, _, _, _, _, _, _, l, _, i, _, _⟩
  cases l <;> simp [State.readAt, memReadState, Nat.add_assoc, Nat.add_comm 1 k]

@[simp] theorem memReadState_nextWrite (a : Addr) (s : State) : (memReadState a s).nextWrite = s.nextWrite := rfl

@[simp] theorem sleep1_readAt (s : State) (k : Nat) : (sleep1 s).readAt k = s.readAt k := rfl

@[simp] theorem done_readAt (st : Status) (v a : Reg) (s : State) (k : Nat) :
    (done st v a s).readAt k = s.readAt k := rfl

@[simp] theorem withInputs_readAt (s : State) (l : List Input) (k : Nat) :
    (s.withInputs l).readAt k = s.readAt k := rfl

@[simp] theorem withInputs_nextWrite (s : State) (l : List Input) : (s.withInputs l).nextWrite = s.nextWrite := rfl

/-! The cache by field. -/

@[simp] theorem get_set_same (c : CfgCache) (f : Selector) (v : Sel) : (c.set f v).get f = v := by
  cases f <;> rfl

@[simp] theorem get_set_other (c : CfgCache) {f g : Selector} (v : Sel) (h : g ≠ f) : (c.set f v).get g = c.get g := by
  cases f <;> cases g <;> first | rfl | exact absurd rfl h

/-! Status codes. -/

@[simp] theorem code_ok : Status.ok.code = 0x0000#16 := rfl
@[simp] theorem code_writeFailed : Status.writeFailed.code = 0x8004#16 := rfl
@[simp] theorem code_illegalCmd : Status.illegalCmd.code = 0x80FF#16 := rfl

/-- Every code but `ST_OK` has bit 15 set (30_encoding.md R84). -/
theorem code_failure_bit (st : Status) : st.code.getLsbD 15 = true ↔ st ≠ .ok := by
  cases st <;> decide

/-- The codes are distinct. -/
theorem code_injective {a b : Status} (h : a.code = b.code) : a = b := by
  cases a <;> cases b <;> first | rfl | exact absurd h (by decide)

/-! Fields of the configuration register. -/

/-- A selector inserted and extracted again is the selector (40_config_codec.md R103 (a), at the width of the cache). -/
theorem extract_insert_selector (w : Word16) (f : Selector) (v : Nat) (h : v ≤ 7) :
    (cfgExtract (cfgInsert w f.field v) f.field).toNat = v := by
  obtain ⟨k, rfl⟩ : ∃ k : Fin 8, v = k := ⟨⟨v, by omega⟩, rfl⟩
  have key : ∀ (k : Fin 8), cfgExtract (cfgInsert w f.field k) f.field = BitVec.ofNat 16 k := by
    intro k
    have hk := k.isLt
    ext j hj
    cases f <;> simp [cfgExtract, cfgInsert, Selector.field, CfgField.msk, CfgField.off, CfgField.wid] <;>
      (fin_cases k <;> interval_cases j <;> simp)
  rw [key]
  simp
  omega

end Sys2Proof.Machine
end

