-- ==== Sys2Proof/Laws/Calibration.lean ====
section
/-! SUPPORT. What the steps of the calibration computation give (41_calibration.md R126 to R134). -/

namespace Sys2Proof.Machine

open Sys2Proof.Safety

/-- A snapped value is a member of the sequence, not below its argument. -/
theorem snap125_spec {u m : Nat} (h : snap125 u = some m) : m ∈ sequence125 ∧ u ≤ m := by
  refine ⟨List.mem_of_find?_eq_some h, ?_⟩
  simpa using List.find?_some h

/-- The loop with enough passes: `c` is halved, dropping bits, the least number of times that makes it fit, and `L` is
doubled as often (R131). -/
theorem autoScaleFuel_spec (fuel c L k : Nat) (h : c < 2 ^ fuel * 65536) :
    ∃ j, autoScaleFuel fuel c L k = { lsb := L * 2 ^ j, calib := c / 2 ^ j, shifts := k + j } ∧
      c / 2 ^ j ≤ 65535 ∧ ∀ i < j, 65535 < c / 2 ^ i := by
  induction fuel generalizing c L k with
  | zero => exact ⟨0, by simp [autoScaleFuel], by simp at h ⊢; omega, by simp⟩
  | succ fuel ih =>
    rw [autoScaleFuel]
    by_cases hc : c > 65535
    · obtain ⟨j, he, hle, hlt⟩ := ih (c / 2) (2 * L) (k + 1) (by rw [pow_succ] at h; omega)
      have hd : ∀ i, c / 2 / 2 ^ i = c / 2 ^ (i + 1) := fun i => by
        rw [Nat.div_div_eq_div_mul, ← pow_succ']
      refine ⟨j + 1, ?_, ?_, ?_⟩
      · rw [if_pos hc, he, hd]
        congr 1
        · rw [pow_succ]; ring
        · omega
      · rw [← hd]; exact hle
      · intro i hi
        cases i with
        | zero => simpa using hc
        | succ i => rw [← hd]; exact hlt i (by omega)
    · exact ⟨0, by simp [hc], by simp; omega, by simp⟩

/-- The bound on the passes is never what ends the loop. -/
theorem autoScale_spec (c L : Nat) :
    ∃ k, autoScale c L = { lsb := L * 2 ^ k, calib := c / 2 ^ k, shifts := k } ∧
      c / 2 ^ k ≤ 65535 ∧ ∀ i < k, 65535 < c / 2 ^ i := by
  have h : c < 2 ^ (Nat.log2 c + 1) * 65536 := by
    have : c < 2 ^ (Nat.log2 c + 1) := Nat.lt_log2_self
    omega
  simpa [autoScale] using autoScaleFuel_spec _ c L 0 h

/-- Inside the limits the computation always reaches the write (R136, R142). -/
theorem calCompute_ok {n : Bool} {M S : Nat} (h : precheck M S = none) :
    ∃ L, scaleFactor n M S = some L ∧ calCompute n M S = .ok (autoScale (calibValue L S) L) := by
  obtain ⟨L, hL⟩ := scaleFactor_defined n h
  exact ⟨L, hL, by simp [calCompute, h, hL]⟩

/-- The two ways `CAL` can go: a failed check, or a write of what was computed; the sequence is never exhausted. -/
theorem calibrate_cases (n : Bool) (s : State) :
    (∃ e, precheck s.maxi.toNat s.shunt.toNat = some e ∧ calibrate n s = raise e s) ∨
    (precheck s.maxi.toNat s.shunt.toNat = none ∧ ∃ L, scaleFactor n s.maxi.toNat s.shunt.toNat = some L ∧
      calibrate n s = calPersist (autoScale (calibValue L s.shunt.toNat) L) s) := by
  cases h : precheck s.maxi.toNat s.shunt.toNat with
  | some e =>
    left
    refine ⟨e, rfl, ?_⟩
    rcases precheck_some h with rfl | rfl | rfl <;> simp [calibrate, calCompute, h, calFail]
  | none =>
    right
    obtain ⟨L, hL, hc⟩ := calCompute_ok (n := n) h
    exact ⟨rfl, L, hL, by simp [calibrate, hc]⟩

/-- The write of `CAL` and everything it changes (R132 to R134). -/
theorem calPersist_eq (r : Scaled) (s : State) : calPersist r s = calOutcome s r.lsb r.calib r.shifts := by
  cases hn : s.nextWrite <;>
    (simp only [calPersist, memWrite, calOutcome, hn]
     simp only [memWriteState, hn]
     rfl)

end Sys2Proof.Machine
end

