-- ==== Sys2Proof/Laws/Codec.lean ====
section
/-! SUPPORT. Everything the shared procedures of the codec can do (40_config_codec.md R105, R110, R115). -/

namespace Sys2Proof.Machine

open Sys2Proof.Safety

/-- An out-of-range selector is ignored. -/
theorem setField_ignored (f : Selector) {v : Nat} (s : State) (h : 7 < v) : setField f v s = done .ok 0 0 s := by
  simp [setField, h]

/-- An in-range selector is a read-modify-write of its field. -/
theorem setField_acts (f : Selector) {v : Nat} (s : State) (h : v ≤ 7) :
    setField f v s = rmwOutcome s (cfgInsert (s.readAt 0) f.field v) (s.cache.set f (BitVec.ofNat 3 v)) := by
  have h' : ¬ v > 7 := by omega
  cases hn : s.nextWrite <;>
    (simp only [setField, if_neg h', memRead, memWrite, memReadState_nextWrite, rmwOutcome, hn]
     simp only [memWriteState, memReadState_nextWrite, hn]
     rfl)

/-- `SRST` is a read-modify-write of the reset bit that leaves the cache. -/
theorem softReset_eq (s : State) : softReset s = rmwOutcome s (cfgInsert (s.readAt 0) .rst 1) s.cache := by
  cases hn : s.nextWrite <;>
    (simp only [softReset, memRead, memWrite, memReadState_nextWrite, rmwOutcome, hn]
     simp only [memWriteState, memReadState_nextWrite, hn]
     rfl)

/-- Extraction is the bit slice (40_config_codec.md R101), for the four selectors. -/
theorem cfgExtract_slice (w : Word16) (f : Selector) :
    cfgExtract w f.field = (w.extractLsb' f.field.off 3).setWidth 16 := by
  cases f <;> simp [cfgExtract, Selector.field, CfgField.msk, CfgField.off, CfgField.wid] <;>
    ext j hj <;> interval_cases j <;> simp

/-- `get_field` reads once and writes one cache field and the results. -/
theorem getField_eq (f : Selector) (s : State) :
    getField f s =
      getOutcome s ((s.readAt 0).extractLsb' f.field.off 3) (f.decoded ((s.readAt 0).extractLsb' f.field.off 3))
        (s.cache.set f ((s.readAt 0).extractLsb' f.field.off 3)) := by
  have e3 : ∀ x : Sel, (x.setWidth 16).setWidth 3 = x := by decide
  have e32 : ∀ x : Sel, (x.setWidth 16).setWidth 32 = x.setWidth 32 := by decide
  simp only [getField, memRead, memReadValue, cfgExtract_slice, e3, e32]
  rfl

end Sys2Proof.Machine
end

