-- ==== Sys2Proof/Laws/PerInstr.lean ====
section
/-! SUPPORT. A family of facts about every command as a term: the high byte of its word is its row's `op`
(30_encoding.md R70, R71). -/

namespace Sys2Proof.Laws

/-- `op` of the command's row (30_encoding.md R71). -/
def opcode : Instr → Nat
  | .setmode _ => 0x10
  | .setsvct _ => 0x11
  | .setbvct _ => 0x12
  | .setavg _ => 0x13
  | .srst => 0x18
  | .getmode => 0x20
  | .getsvct => 0x21
  | .getbvct => 0x22
  | .getavg => 0x23
  | .cal _ => 0x30
  | .tmoest => 0x40
  | .isrdy => 0x41
  | .waitt => 0x42
  | .waitc => 0x43

/-- An 8-bit operand under a fixed high byte leaves that byte. -/
theorem opField_or (hi : Nat) (h : hi < 256) (v : Nat) (hv : v < 256) :
    opField (BitVec.ofNat 16 (hi * 256) ||| BitVec.ofNat 16 v) = hi ∧
    immField (BitVec.ofNat 16 (hi * 256) ||| BitVec.ofNat 16 v) = v := by
  have key : (BitVec.ofNat 16 (hi * 256) ||| BitVec.ofNat 16 v).toNat = hi * 256 + v := by
    rw [BitVec.toNat_or, BitVec.toNat_ofNat, BitVec.toNat_ofNat, Nat.mod_eq_of_lt (by omega : hi * 256 < 2 ^ 16),
      Nat.mod_eq_of_lt (by omega : v < 2 ^ 16)]
    have := Nat.two_pow_add_eq_or_of_lt (i := 8) (by simpa using hv) hi
    rw [show hi * 256 = 2 ^ 8 * hi by omega, ← this]
  unfold opField immField
  rw [key]
  omega

/-- The high byte of the command's word is its row's `op`. -/
def OpcodeByte.Statement (i : Instr) : Prop := WellFormed i → opField (encode i) = opcode i

theorem OpcodeByte.setmode (v : Nat) : OpcodeByte.Statement (.setmode v) := fun h =>
  (opField_or 0x10 (by norm_num) v (by simpa [WellFormed, Instr.wellFormed] using h)).1
theorem OpcodeByte.setsvct (v : Nat) : OpcodeByte.Statement (.setsvct v) := fun h =>
  (opField_or 0x11 (by norm_num) v (by simpa [WellFormed, Instr.wellFormed] using h)).1
theorem OpcodeByte.setbvct (v : Nat) : OpcodeByte.Statement (.setbvct v) := fun h =>
  (opField_or 0x12 (by norm_num) v (by simpa [WellFormed, Instr.wellFormed] using h)).1
theorem OpcodeByte.setavg (v : Nat) : OpcodeByte.Statement (.setavg v) := fun h =>
  (opField_or 0x13 (by norm_num) v (by simpa [WellFormed, Instr.wellFormed] using h)).1
theorem OpcodeByte.srst : OpcodeByte.Statement .srst := fun _ => by decide
theorem OpcodeByte.getmode : OpcodeByte.Statement .getmode := fun _ => by decide
theorem OpcodeByte.getsvct : OpcodeByte.Statement .getsvct := fun _ => by decide
theorem OpcodeByte.getbvct : OpcodeByte.Statement .getbvct := fun _ => by decide
theorem OpcodeByte.getavg : OpcodeByte.Statement .getavg := fun _ => by decide
theorem OpcodeByte.cal (n : Bool) : OpcodeByte.Statement (.cal n) := fun _ => by cases n <;> decide
theorem OpcodeByte.tmoest : OpcodeByte.Statement .tmoest := fun _ => by decide
theorem OpcodeByte.isrdy : OpcodeByte.Statement .isrdy := fun _ => by decide
theorem OpcodeByte.waitt : OpcodeByte.Statement .waitt := fun _ => by decide
theorem OpcodeByte.waitc : OpcodeByte.Statement .waitc := fun _ => by decide

end Sys2Proof.Laws
end

