-- ==== Sys2Proof/Laws/Timeout.lean ====
section
/-! SUPPORT. What polling and the wait loop do (42_timeout_wait.md R154, R156), and the bounds of the estimator's
tables (30_encoding.md R81 to R83). -/

namespace Sys2Proof.Machine

open Sys2Proof.Safety

theorem poll_eq (s : State) : poll s = (readyFlag (s.readAt 0), memReadState regMaskEnable s) := rfl

/-- The state after `j` passes of the wait loop that saw the flag clear. -/
def afterPasses : Nat → State → State
  | 0, s => s
  | j + 1, s => afterPasses j (sleep1 (memReadState regMaskEnable s))

/-- A pass: the flag is set and the loop succeeds, or it is clear and one unit goes by. -/
theorem waitLoopFrom_succ (p n : Nat) (s : State) :
    waitLoopFrom (p + 1) n s =
      if readyFlag (s.readAt 0) then (true, n, memReadState regMaskEnable s)
      else waitLoopFrom p (n + 1) (sleep1 (memReadState regMaskEnable s)) := rfl

/-- The loop skips the passes that see the flag clear. -/
theorem waitLoopFrom_skip (j p n : Nat) (s : State) (h : ∀ k < j, readyFlag (s.readAt k) = false) :
    waitLoopFrom (j + p) n s = waitLoopFrom p (n + j) (afterPasses j s) := by
  induction j generalizing n s with
  | zero => simp [afterPasses]
  | succ j ih =>
    have h0 : readyFlag (s.readAt 0) = false := h 0 (by omega)
    have e : j + 1 + p = (j + p) + 1 := by omega
    rw [e, waitLoopFrom_succ, h0, if_neg (by simp), ih]
    · simp [afterPasses, Nat.add_assoc, Nat.add_comm 1 j]
    · intro k hk
      simpa using h (k + 1) (by omega)

@[simp] theorem afterPasses_readAt (j : Nat) (s : State) (k : Nat) : (afterPasses j s).readAt k = s.readAt (k + j) := by
  induction j generalizing s with
  | zero => rfl
  | succ j ih => simp [afterPasses, ih, Nat.add_assoc]

/-- The clear passes of a state after one more clear pass. -/
theorem clearPasses_shift (j : Nat) (s : State) :
    clearPasses s (j + 1) =
      clearPasses (sleep1 (memReadState regMaskEnable s)) j ++
        [.sleep, .memRead s.params.devAddr 0x06 (s.readAt 0)] := by
  induction j with
  | zero => rfl
  | succ j ih => rw [clearPasses, ih]; simp [clearPasses]

/-- What clear passes leave behind: reads used up, events seen, nothing else. -/
theorem afterPasses_eq (j : Nat) (s : State) :
    afterPasses j s =
      { s with
        readAnswers := s.readAnswers.drop j
        readIndex := s.readIndex + j
        trace := clearPasses s j ++ s.trace } := by
  induction j generalizing s with
  | zero => simp [afterPasses, clearPasses]
  | succ j ih =>
    rw [afterPasses, ih, clearPasses_shift]
    simp [sleep1, State.logEvent, memReadState, memReadValue, regMaskEnable, Nat.add_assoc, Nat.add_comm 1 j]

/-- The loop times out when no poll sees the flag. -/
theorem waitLoop_timeout (T : Nat) (s : State) (h : ∀ k ≤ T, readyFlag (s.readAt k) = false) :
    waitLoop T s = (false, T + 1, afterPasses (T + 1) s) := by
  have := waitLoopFrom_skip (T + 1) 0 0 s (fun k hk => h k (by omega))
  simpa [waitLoop, waitLoopFrom] using this

/-- The loop succeeds at the first poll that sees the flag. -/
theorem waitLoop_ready (T n : Nat) (s : State) (hn : n ≤ T) (h : ∀ k < n, readyFlag (s.readAt k) = false)
    (hr : readyFlag (s.readAt n) = true) :
    waitLoop T s = (true, n, memReadState regMaskEnable (afterPasses n s)) := by
  obtain ⟨p, rfl⟩ : ∃ p, T = n + p := ⟨T - n, by omega⟩
  have := waitLoopFrom_skip n (p + 1) 0 s h
  rw [waitLoop, Nat.add_assoc, this, waitLoopFrom_succ]
  simp [hr]

/-- One of the two ends is reached. -/
theorem waitLoop_cases (T : Nat) (s : State) :
    (∀ k ≤ T, readyFlag (s.readAt k) = false) ∨
    ∃ n ≤ T, (∀ k < n, readyFlag (s.readAt k) = false) ∧ readyFlag (s.readAt n) = true := by
  by_cases h : ∃ n, n ≤ T ∧ readyFlag (s.readAt n) = true
  · right
    classical
    refine ⟨Nat.find h, (Nat.find_spec h).1, fun k hk => ?_, (Nat.find_spec h).2⟩
    have := Nat.find_min h hk
    have hT := (Nat.find_spec h).1
    simpa [show k ≤ T by omega] using this
  · left
    intro k hk
    by_contra hc
    exact h ⟨k, hk, by simpa using hc⟩

/-- The two ways a bounded wait can end, with everything it changes (R156, R159). -/
theorem boundedWait_cases (T : Nat) (s : State) :
    ((∀ k ≤ T, readyFlag (s.readAt k) = false) ∧
      boundedWait T s = waitOutcome s false (T + 1) (T + 1) (clearPasses s (T + 1))) ∨
    ∃ n ≤ T, (∀ k < n, readyFlag (s.readAt k) = false) ∧ readyFlag (s.readAt n) = true ∧
      boundedWait T s =
        waitOutcome s true n (n + 1) (.memRead s.params.devAddr 0x06 (s.readAt n) :: clearPasses s n) := by
  rcases waitLoop_cases T s with h | ⟨n, hn, hc, hr⟩
  · left
    refine ⟨h, ?_⟩
    simp only [boundedWait, waitLoop_timeout T s h, afterPasses_eq]
    rfl
  · right
    refine ⟨n, hn, hc, hr, ?_⟩
    have hv : memReadValue (afterPasses n s) = s.readAt n := (afterPasses_readAt n s 0).trans (by rw [Nat.zero_add])
    have hs : memReadState regMaskEnable (afterPasses n s) =
        { s with
          readAnswers := s.readAnswers.drop (n + 1)
          readIndex := s.readIndex + (n + 1)
          trace := .memRead s.params.devAddr 0x06 (s.readAt n) :: (clearPasses s n ++ s.trace) } := by
      unfold memReadState
      rw [hv, afterPasses_eq]
      simp [regMaskEnable, Nat.add_assoc]
    simp only [boundedWait, waitLoop_ready T n s hn hc hr, hs]
    rfl

/-! The tables. -/

theorem avgSamples_le (s : Sel) : avgSamples s ≤ 1024 := by revert s; decide

theorem ctUs_le (s : Sel) : ctUs s ≤ 8244 := by revert s; decide

theorem measures_le (t : ModeTable) (m : Sel) : t.measures m ≤ 1 := Bool.toNat_le _

end Sys2Proof.Machine
end

