-- ==== Sys2Proof/Laws/Step.lean ====
section
/-! SUPPORT. What a step and a command can do, said once (20_memory.md R51). -/

namespace Sys2Proof.Machine

open Sys2Proof.Safety

/-- Every command ends in a next state (60_exceptions.md R170). -/
theorem exec_next (i : Instr) (s : State) : ∃ t, exec i s = .next t := by
  cases i <;> exact ⟨_, rfl⟩

/-- What one input can do. -/
theorem runInput_cases {a : Input} {s t : State} (h : runInput a s = .next t) :
    (a = .reset ∧ t = resetBlock s) ∨
    (∃ i, a = .hostRead i ∧ t = hostRead i s) ∨
    (∃ i d, a = .hostWrite i d ∧ i ≠ regCmd ∧ t = hostWrite i d s) ∨
    (∃ d e, a = .hostWrite regCmd d ∧ decode (commandWord d) = .error e ∧ t = illegalCommand s) ∨
    (∃ d i, a = .hostWrite regCmd d ∧ decode (commandWord d) = .ok i ∧ exec i s = .next t) := by
  cases a with
  | reset => exact .inl ⟨rfl, by simpa [runInput] using h.symm⟩
  | hostRead i => exact .inr (.inl ⟨i, rfl, by simpa [runInput] using h.symm⟩)
  | hostWrite i d =>
    simp only [runInput] at h
    split_ifs at h with hi
    · subst hi
      unfold runCommand at h
      cases hd : decode (commandWord d) with
      | ok j => exact .inr (.inr (.inr (.inr ⟨d, j, rfl, hd, by simpa [hd] using h⟩)))
      | error e => exact .inr (.inr (.inr (.inl ⟨d, e, rfl, hd, by simpa [hd] using h.symm⟩)))
    · exact .inr (.inr (.inl ⟨i, d, rfl, hi, by simpa using h.symm⟩))

/-- A step is idle, or takes the next input. -/
theorem step_cases {s t : State} (h : step s = .next t) :
    (s.inputs = [] ∧ t = s) ∨ ∃ a rest, s.inputs = a :: rest ∧ runInput a (s.withInputs rest) = .next t := by
  unfold step at h
  cases hs : s.inputs with
  | nil => exact .inl ⟨rfl, by simpa [hs, idle] using h.symm⟩
  | cons a rest => exact .inr ⟨a, rest, rfl, by simpa [hs] using h⟩

/-- What the host writes outside `CMD` never touches. -/
theorem hostWrite_frame (i : RegNo) (d : Reg) (s : State) :
    ∃ m sh tm, hostWrite i d s = { s with maxi := m, shunt := sh, tmo := tm } := by
  unfold hostWrite
  split
  · exact ⟨d, s.shunt, s.tmo, rfl⟩
  · exact ⟨s.maxi, d, s.tmo, rfl⟩
  · exact ⟨s.maxi, s.shunt, d, rfl⟩
  · exact ⟨s.maxi, s.shunt, s.tmo, rfl⟩

/-! Every way a command can end. -/

/-- The states command `i` can leave from `s`, with everything it changes. -/
inductive Ends (i : Instr) (s : State) : State → Prop where
  /-- An out-of-range `SETx` is ignored. -/
  | ignored (f : Selector) (v : Nat) (hi : i = setCommand f v) (hv : 7 < v) : Ends i s (done .ok 0 0 s)
  /-- An in-range `SETx`. -/
  | set (f : Selector) (v : Nat) (hi : i = setCommand f v) (hv : v ≤ 7) :
      Ends i s (rmwOutcome s (cfgInsert (s.readAt 0) f.field v) (s.cache.set f (BitVec.ofNat 3 v)))
  /-- A `GETx`. -/
  | got (f : Selector) (v : Sel) (hi : i = getCommand f) (hv : v = (s.readAt 0).extractLsb' f.field.off 3) :
      Ends i s (getOutcome s v (f.decoded v) (s.cache.set f v))
  /-- `SRST`. -/
  | softReset (hi : i = .srst) : Ends i s (rmwOutcome s (cfgInsert (s.readAt 0) .rst 1) s.cache)
  /-- A `CAL` that fails a check. -/
  | calRejected (n : Bool) (e : Status) (hi : i = .cal n) (he : precheck s.maxi.toNat s.shunt.toNat = some e) :
      Ends i s (raise e s)
  /-- A `CAL` that reaches the write. -/
  | calOffered (n : Bool) (L : Nat) (r : Scaled) (hi : i = .cal n)
      (hp : precheck s.maxi.toNat s.shunt.toNat = none)
      (hL : scaleFactor n s.maxi.toNat s.shunt.toNat = some L)
      (hr : r = autoScale (calibValue L s.shunt.toNat) L) : Ends i s (calOutcome s r.lsb r.calib r.shifts)
  /-- `TMOEST`. -/
  | estimated (hi : i = .tmoest) : Ends i s (estimate s)
  /-- `ISRDY`, `WAITT`, `WAITC`: reads of 0x06 and sleeps, then the results. -/
  | waited (ready : Bool) (n reads : Nat) (evs : List Event) (hi : i = .isrdy ∨ i = .waitt ∨ i = .waitc)
      (he : ∀ e ∈ evs, e = .sleep ∨ ∃ v, e = .memRead s.params.devAddr 0x06 v) :
      Ends i s (waitOutcome s ready n reads evs)

/-- The events of clear passes are sleeps and reads of 0x06. -/
theorem clearPasses_events (s : State) (n : Nat) :
    ∀ e ∈ clearPasses s n, e = .sleep ∨ ∃ v, e = .memRead s.params.devAddr 0x06 v := by
  induction n with
  | zero => simp [clearPasses]
  | succ n ih =>
    intro e he
    simp only [clearPasses, List.mem_cons] at he
    rcases he with rfl | rfl | he
    · exact .inl rfl
    · exact .inr ⟨_, rfl⟩
    · exact ih e he

/-- A bounded wait only reads 0x06 and sleeps. -/
theorem boundedWait_events (T : Nat) (s : State) :
    ∃ ready n reads evs, boundedWait T s = waitOutcome s ready n reads evs ∧
      ∀ e ∈ evs, e = .sleep ∨ ∃ v, e = .memRead s.params.devAddr 0x06 v := by
  rcases boundedWait_cases T s with ⟨_, h⟩ | ⟨n, _, _, _, h⟩
  · exact ⟨_, _, _, _, h, clearPasses_events s _⟩
  · refine ⟨_, _, _, _, h, fun e he => ?_⟩
    rcases List.mem_cons.mp he with rfl | he
    · exact .inr ⟨_, rfl⟩
    · exact clearPasses_events s n e he

/-- The fast path of `WAITC`, or a bounded wait after one read (R160). -/
theorem computedWait_eq (s : State) :
    computedWait s =
      if readyFlag (s.readAt 0) then done .ok 1 0 (memReadState regMaskEnable s)
      else boundedWait (tmoEst s.params s.cache) (memReadState regMaskEnable s) := rfl

/-- `WAITC` only reads 0x06 and sleeps. -/
theorem computedWait_events (s : State) :
    ∃ ready n reads evs, computedWait s = waitOutcome s ready n reads evs ∧
      ∀ e ∈ evs, e = .sleep ∨ ∃ v, e = .memRead s.params.devAddr 0x06 v := by
  rw [computedWait_eq]
  split_ifs
  · refine ⟨true, 0, 1, [.memRead s.params.devAddr 0x06 (s.readAt 0)], ?_, by simp⟩
    simp [waitOutcome, done, memReadState, memReadValue, regMaskEnable]
  · obtain ⟨ready, n, reads, evs, h, he⟩ :=
      boundedWait_events (tmoEst s.params s.cache) (memReadState regMaskEnable s)
    refine ⟨ready, n, reads + 1, evs ++ [.memRead s.params.devAddr 0x06 (s.readAt 0)], ?_, fun e hm => ?_⟩
    · rw [h]
      simp only [waitOutcome, memReadState, memReadValue, regMaskEnable, List.append_assoc, List.singleton_append,
        List.drop_tail]
      congr 1
      omega
    · rcases List.mem_append.mp hm with hm | hm
      · exact he e hm
      · exact .inr ⟨_, List.mem_singleton.mp hm⟩

/-- A `SETx` ends as ignored or as a read-modify-write. -/
theorem setField_ends (f : Selector) (v : Nat) (s : State) : Ends (setCommand f v) s (setField f v s) := by
  by_cases h : 7 < v
  · rw [setField_ignored f s h]
    exact .ignored f v rfl h
  · rw [setField_acts f s (by omega)]
    exact .set f v rfl (by omega)

/-- Everything a command can do. -/
theorem exec_ends {i : Instr} {s t : State} (h : exec i s = .next t) : Ends i s t := by
  cases i with
  | setmode v => cases h; exact setField_ends .mode v s
  | setsvct v => cases h; exact setField_ends .svct v s
  | setbvct v => cases h; exact setField_ends .bvct v s
  | setavg v => cases h; exact setField_ends .avg v s
  | srst => cases h; rw [softReset_eq]; exact .softReset rfl
  | getmode => cases h; rw [getField_eq]; exact .got .mode _ rfl rfl
  | getsvct => cases h; rw [getField_eq]; exact .got .svct _ rfl rfl
  | getbvct => cases h; rw [getField_eq]; exact .got .bvct _ rfl rfl
  | getavg => cases h; rw [getField_eq]; exact .got .avg _ rfl rfl
  | cal n =>
    cases h
    rcases calibrate_cases n s with ⟨e, he, hc⟩ | ⟨hp, L, hL, hc⟩
    · rw [hc]; exact .calRejected n e rfl he
    · rw [hc, calPersist_eq]; exact .calOffered n L _ rfl hp hL rfl
  | tmoest => cases h; exact .estimated rfl
  | isrdy =>
    cases h
    have : isReady s = waitOutcome s (readyFlag (s.readAt 0)) 0 1 [.memRead s.params.devAddr 0x06 (s.readAt 0)] := by
      cases hr : readyFlag (s.readAt 0) <;>
        simp [isReady, poll_eq, hr, waitOutcome, done, memReadState, memReadValue, regMaskEnable, boolReg]
    rw [this]
    exact .waited _ _ _ _ (.inl rfl) (by simp)
  | waitt =>
    cases h
    obtain ⟨ready, n, reads, evs, hw, he⟩ := boundedWait_events s.tmo.toNat s
    rw [hw]
    exact .waited _ _ _ _ (.inr (.inl rfl)) he
  | waitc =>
    cases h
    obtain ⟨ready, n, reads, evs, hw, he⟩ := computedWait_events s
    rw [hw]
    exact .waited _ _ _ _ (.inr (.inr rfl)) he

/-- What holds of a state is kept by a step when a reset gives it and each other input keeps it. -/
theorem step_keeps (P : State → Prop)
    (onReset : ∀ s, P s → P (resetBlock s))
    (onTake : ∀ s l, P s → P (s.withInputs l))
    (onRead : ∀ i s, P s → P (hostRead i s))
    (onWrite : ∀ i d s, P s → P (hostWrite i d s))
    (onIllegal : ∀ s, P s → P (illegalCommand s))
    (onCommand : ∀ i s t, P s → exec i s = .next t → P t)
    {s t : State} (hs : P s) (h : step s = .next t) : P t := by
  rcases step_cases h with ⟨_, rfl⟩ | ⟨a, rest, _, h⟩
  · exact hs
  · have hs' := onTake s rest hs
    rcases runInput_cases h with ⟨_, rfl⟩ | ⟨i, _, rfl⟩ | ⟨i, d, _, _, rfl⟩ | ⟨d, e, _, _, rfl⟩ | ⟨d, i, _, _, h⟩
    · exact onReset _ hs'
    · exact onRead _ _ hs'
    · exact onWrite _ _ _ hs'
    · exact onIllegal _ hs'
    · exact onCommand _ _ _ hs' h

end Sys2Proof.Machine
end

