-- ==== Sys2Proof/Tests/Slice0.lean ====
section
/-! SUPPORT. Tests: ill-formed terms, words written out from the spec's encodings, one step a test with the results of
95_test_vectors.md, and for each statement with hypotheses a state and operands that meet them. -/

namespace Sys2Proof.Tests

open Sys2Proof Sys2Proof.Machine Sys2Proof.Safety

/-! Helpers. -/

/-- The block just reset, with the device's answers listed. -/
def sample (reads : List Word16) (writes : List TransportStatus) : State :=
  { State.reset with readAnswers := reads, writeAnswers := writes }

/-- The same with a cache, given as `CFGCACHE`. -/
def cached (cache : BitVec 12) (reads : List Word16) (writes : List TransportStatus) : State :=
  { sample reads writes with cache := CfgCache.ofWord cache }

/-- The same with operands for `CAL`. -/
def operands (M S : Nat) (writes : List TransportStatus) : State :=
  { sample [] writes with maxi := BitVec.ofNat 32 M, shunt := BitVec.ofNat 32 S }

/-- The next state of an outcome, where there is one. -/
def nextOf : Host.Outcome State Fault Refusal → Option State
  | .next t => some t
  | .fault _ => none
  | .refused _ => none

/-- `STATUS`, `VALUE`, `AUX`, `CFGCACHE` and the device accesses after a command. -/
structure Results where
  status : Word16
  value : Reg
  aux : Reg
  cfgcache : BitVec 12
  bus : List (Bool × Addr)
deriving DecidableEq, Repr

/-- What a test looks at. -/
def results (o : Host.Outcome State Fault Refusal) : Option Results :=
  (nextOf o).map fun t => ⟨t.status, t.value, t.aux, t.cache.pack, accesses t.trace⟩

/-- `STATUS`, `VALUE`, `AUX`, `CURRENT_LSB`, `SHUNT_C`, `MAXCURRENT_C`, `CAL` after a command. -/
structure CalResults where
  status : Word16
  value : Reg
  aux : Reg
  currentLsb : Reg
  shuntC : Reg
  maxCurrentC : Reg
  cal : Word16
deriving DecidableEq, Repr

/-- What a test of `CAL` looks at. -/
def calResults (o : Host.Outcome State Fault Refusal) : Option CalResults :=
  (nextOf o).map fun t => ⟨t.status, t.value, t.aux, t.currentLsb, t.shuntC, t.maxCurrentC, t.cal⟩

/-! Ill-formed terms are refused (30_encoding.md R72). -/

theorem test_illformed_setmode : ¬ WellFormed (.setmode 256) := by decide
theorem test_illformed_setsvct : ¬ WellFormed (.setsvct 300) := by decide
theorem test_illformed_setbvct : ¬ WellFormed (.setbvct 256) := by decide
theorem test_illformed_setavg : ¬ WellFormed (.setavg 1000) := by decide

/-! Decoding, from the words of 30_encoding.md R71 written bit by bit. -/

theorem test_decode_setmode : decode 0b0001000000000011#16 = .ok (.setmode 3) := by decide
theorem test_decode_setsvct : decode 0b0001000111111111#16 = .ok (.setsvct 255) := by decide
theorem test_decode_setbvct : decode 0b0001001000000101#16 = .ok (.setbvct 5) := by decide
theorem test_decode_setavg : decode 0b0001001101000000#16 = .ok (.setavg 64) := by decide
theorem test_decode_srst : decode 0b0001100000000000#16 = .ok .srst := by decide
theorem test_decode_getmode : decode 0b0010000000000000#16 = .ok .getmode := by decide
theorem test_decode_getsvct : decode 0b0010000100000000#16 = .ok .getsvct := by decide
theorem test_decode_getbvct : decode 0b0010001000000000#16 = .ok .getbvct := by decide
theorem test_decode_getavg : decode 0b0010001100000000#16 = .ok .getavg := by decide
theorem test_decode_cal_plain : decode 0b0011000000000000#16 = .ok (.cal false) := by decide
theorem test_decode_cal_normalize : decode 0b0011000000000001#16 = .ok (.cal true) := by decide
theorem test_decode_tmoest : decode 0b0100000000000000#16 = .ok .tmoest := by decide
theorem test_decode_isrdy : decode 0b0100000100000000#16 = .ok .isrdy := by decide
theorem test_decode_waitt : decode 0b0100001000000000#16 = .ok .waitt := by decide
theorem test_decode_waitc : decode 0b0100001100000000#16 = .ok .waitc := by decide

/-- The illegal words of 95_test_vectors.md 2.6, each with its reason. -/
theorem test_decode_illegal :
    [0x0000, 0x1400, 0x1900, 0x2400, 0x3100, 0x4400, 0xFFFF].map decode =
      List.replicate 7 (.error .unknownOp) ∧
    [0x4001, 0x1801, 0x2301].map decode = List.replicate 3 (.error .operandOnC0) ∧
    [0x3002, 0x30FF, 0x3003].map decode = List.replicate 3 (.error .calOperand) := by decide

theorem test_table_word : decodeTableWord 16 0x1303 = some (.setavg 3) := by decide

/-- The step after `withFetchWord` runs the word's command: `CAL` from reset, operands 0 (95_test_vectors.md 2.3). -/
theorem test_fetch_word : calResults (step (State.reset.withFetchWord 16 0x3001)) =
    some ⟨0x8001, 0, 0, 0, 0, 0, 0⟩ := by decide

/-! The codec (95_test_vectors.md 2.1, 2.2). -/

theorem test_insert_vectors :
    cfgInsert 0x4127 .mode 3 = 0x4123 ∧ cfgInsert 0x4127 .svct 7 = 0x413F ∧ cfgInsert 0x4127 .bvct 0 = 0x4027 ∧
    cfgInsert 0x4127 .avg 3 = 0x4727 ∧ cfgInsert 0xC127 .rst 0 = 0x4127 ∧ cfgInsert 0xFFFF .avg 0 = 0xF1FF ∧
    cfgInsert 0x8000 .svct 2 = 0x8010 := by decide
theorem test_unpack_vectors :
    cfgUnpack 0x8E38 = (1, 7, 0, 7, 0) ∧ cfgUnpack 0x46BB = (0, 3, 2, 7, 3) := by decide
theorem test_pack_vectors :
    cfgPack 0x4127 1 5 3 6 2 = 0xCAF2 ∧ cfgPack 0xFFFF 0 0 0 0 0 = 0x7000 := by decide

theorem test_setmode : results (exec (.setmode 3) (sample [0x4127] [.ok])) =
    some ⟨0x0000, 0x4123, 0, 0x003, [(true, 0x00), (false, 0x00)]⟩ := by decide
theorem test_setmode_ignored : results (exec (.setmode 8) (sample [0x4127] [.ok])) =
    some ⟨0x0000, 0, 0, 0x000, []⟩ := by decide
theorem test_setsvct : results (exec (.setsvct 7) (sample [0x4127] [.ok])) =
    some ⟨0x0000, 0x413F, 0, 0x038, [(true, 0x00), (false, 0x00)]⟩ := by decide
theorem test_setbvct : results (exec (.setbvct 0) (cached 0x1C0 [0x4127] [.ok])) =
    some ⟨0x0000, 0x4027, 0, 0x000, [(true, 0x00), (false, 0x00)]⟩ := by decide
theorem test_setavg_other_fields_kept : results (exec (.setavg 5) (cached 0x727 [0x0000] [.ok])) =
    some ⟨0x0000, 0x0A00, 0, 0xB27, [(true, 0x00), (false, 0x00)]⟩ := by decide
theorem test_setavg_failed_write : results (exec (.setavg 5) (sample [0x4127] [.fail])) =
    some ⟨0x8004, 0x4B27, 0, 0x000, [(true, 0x00), (false, 0x00)]⟩ := by decide
theorem test_srst : results (exec .srst (cached 0x727 [0x4127] [.ok])) =
    some ⟨0x0000, 0xC127, 0, 0x727, [(true, 0x00), (false, 0x00)]⟩ := by decide
theorem test_srst_failed_write : results (exec .srst (sample [0x0000] [.fail])) =
    some ⟨0x8004, 0x8000, 0, 0x000, [(true, 0x00), (false, 0x00)]⟩ := by decide
theorem test_getmode_power_down : results (exec .getmode (sample [0x4124] [])) =
    some ⟨0x0000, 4, 0, 0x004, [(true, 0x00)]⟩ := by decide
theorem test_getsvct : results (exec .getsvct (sample [0x4127] [])) =
    some ⟨0x0000, 4, 1100, 0x020, [(true, 0x00)]⟩ := by decide
theorem test_getbvct : results (exec .getbvct (sample [0x46BB] [])) =
    some ⟨0x0000, 2, 332, 0x080, [(true, 0x00)]⟩ := by decide
theorem test_getavg_one_field : results (exec .getavg (cached 0xFFF [0x0000] [])) =
    some ⟨0x0000, 0, 1, 0x1FF, [(true, 0x00)]⟩ := by decide

/-! `CAL` (95_test_vectors.md 2.3). -/

theorem test_cal_auto_scaled : calResults (exec (.cal false) (operands 1000 1000 [.ok])) =
    some ⟨0x0000, 40960, 12, 4096000, 1000, 4096000, 40960⟩ := by decide
theorem test_cal_normalized : calResults (exec (.cal true) (operands 32768000 2000 [.ok])) =
    some ⟨0x0000, 1280, 0, 65536000, 2000, 65536000, 1280⟩ := by decide

/-- The computation on rows of the table: `L`, `c`, `k`. -/
theorem test_cal_vectors :
    calCompute false 20000000 2000 = .ok ⟨20000000, 4194, 0⟩ ∧ calCompute true 20000000 2000 = .ok ⟨32768000, 2560, 0⟩ ∧
    calCompute false 80000000 1000 = .ok ⟨80000000, 2097, 0⟩ ∧ calCompute true 80000000 1000 = .ok ⟨163840000, 1024, 0⟩ ∧
    calCompute false 20971520 1024 = .ok ⟨20971520, 7813, 0⟩ ∧ calCompute false 2560019 1000 = .ok ⟨5120038, 32768, 1⟩ ∧
    calCompute false 2560020 1000 = .ok ⟨2560020, 65535, 0⟩ ∧ calCompute true 1000 78126 = .ok ⟨32768, 65535, 0⟩ ∧
    calCompute false 2283662 1016 = .ok ⟨4567324, 36154, 1⟩ ∧ calCompute true 1000 80000000 = .ok ⟨32768, 64, 0⟩ := by
  decide
theorem test_cal_checks :
    calCompute false 80000001 1000 = .error .shuntVoltageHigh ∧ calCompute true 200000000 500 = .error .shuntVoltageHigh ∧
    calCompute false 999 999 = .error .maxCurrentLow ∧ calCompute true 0 0 = .error .maxCurrentLow ∧
    calCompute false 1000 999 = .error .shuntLow := by decide
theorem test_snap125 :
    [1, 2, 3, 5, 6, 11, 21, 51, 101, 611, 1001, 2442, 5000, 5001].map snap125 =
      [some 1, some 2, some 5, some 5, some 10, some 20, some 50, some 100, some 200, some 1000, some 2000, some 5000,
       some 5000, none] := by decide

/-! The estimator and the waits (95_test_vectors.md 2.4, 2.5; 42_timeout_wait.md R162, R163). -/

theorem test_tmoest : results (exec .tmoest (cached 0x6AF [] [])) = some ⟨0x0000, 167, 156672, 0x6AF, []⟩ := by decide
theorem test_tmoest_one_channel : results (exec .tmoest (cached 0x6AE [] [])) =
    some ⟨0x0000, 25, 21248, 0x6AE, []⟩ := by decide

/-- The table of R162, single-channel estimates, averaging selector by rows. -/
theorem test_single_channel_table :
    (List.range 8).map (fun a => (List.range 8).map fun c =>
      timeoutOf (avgSamples (BitVec.ofNat 3 a) * ctUs (BitVec.ofNat 3 c))) =
    [[3, 3, 3, 3, 4, 5, 7, 11], [3, 3, 4, 5, 7, 11, 20, 37], [5, 6, 8, 12, 21, 38, 72, 141],
     [12, 16, 25, 42, 76, 145, 282, 556], [21, 30, 47, 82, 150, 287, 561, 1110],
     [40, 57, 92, 161, 298, 571, 1120, 2218], [78, 112, 181, 319, 594, 1140, 2237, 4434],
     [153, 222, 359, 635, 1185, 2278, 4471, 8866]] := by decide

/-- The table of R163, both channels with equal selectors, under the default parameters. -/
theorem test_two_channel_table :
    (List.range 8).map (fun a => (List.range 8).map fun c =>
      tmoEst Config.defaultParams ⟨BitVec.ofNat 3 a, BitVec.ofNat 3 c, BitVec.ofNat 3 c, 7⟩) =
    [[3, 3, 3, 4, 5, 7, 11, 20], [4, 4, 5, 7, 12, 20, 37, 72], [7, 9, 14, 22, 39, 74, 142, 279],
     [21, 30, 47, 82, 150, 287, 561, 1110], [40, 57, 92, 161, 298, 571, 1120, 2218],
     [78, 112, 181, 319, 594, 1140, 2237, 4434], [153, 222, 359, 635, 1185, 2278, 4471, 8866],
     [304, 441, 716, 1267, 2368, 4553, 8940, 17730]] := by decide

theorem test_isrdy : results (exec .isrdy (sample [0x0008] [])) =
    some ⟨0x0000, 1, 0, 0x000, [(true, 0x06)]⟩ := by decide
theorem test_isrdy_not : results (exec .isrdy (sample [0xFFF7] [])) =
    some ⟨0x0000, 0, 0, 0x000, [(true, 0x06)]⟩ := by decide
theorem test_waitt_ready : results (exec .waitt { sample [0, 0, 0, 0x0008] [] with tmo := 3 }) =
    some ⟨0x0000, 1, 3, 0x000, List.replicate 4 (true, 0x06)⟩ := by decide
theorem test_waitt_timeout : results (exec .waitt { sample [0, 0, 0, 0, 0x0008] [] with tmo := 3 }) =
    some ⟨0x0000, 0, 4, 0x000, List.replicate 4 (true, 0x06)⟩ := by decide
theorem test_waitc_ready : results (exec .waitc (cached 0x127 [0, 0, 0x0008] [])) =
    some ⟨0x0000, 1, 1, 0x127, List.replicate 3 (true, 0x06)⟩ := by decide
theorem test_waitc_timeout : results (exec .waitc (cached 0x127 [0, 0, 0, 0, 0, 0, 0, 8] [])) =
    some ⟨0x0000, 0, 6, 0x127, List.replicate 7 (true, 0x06)⟩ := by decide

/-! The host port (95_test_vectors.md 2.6). -/

theorem test_illegal_word_high_bits_ignored :
    results (step { sample [] [] with inputs := [.hostWrite 3 0x00013003] }) = some ⟨0x80FF, 0, 0, 0x000, []⟩ := by decide
theorem test_command_high_bits_ignored :
    results (step { sample [0x4127] [.ok] with inputs := [.hostWrite 3 0x00011303] }) =
      some ⟨0x0000, 0x4727, 0, 0x600, [(true, 0x00), (false, 0x00)]⟩ := by decide
theorem test_read_only_register_write_ignored :
    nextOf (step { sample [] [] with inputs := [.hostWrite 7 1] }) = some (sample [] []) := by decide
theorem test_host_read_of_cache :
    (nextOf (step { cached 0x727 [] [] with inputs := [.hostRead 11] })).map State.trace =
      some [.hostRead 11 0x727] := by decide

/-! Witnesses: for each statement with hypotheses, values that meet them, at the edges of its clauses. -/

/-- The premises of the last two clauses: a set command at its greatest operand and a get command. -/
theorem witness_DecodeFollowsOpcodeMap :
    decode 0x13FF = .ok (setCommand .avg 255) ∧ decode 0x2300 = .ok (getCommand .avg) := by decide

theorem witness_DecodeEncodeAgree :
    WellFormed (.setmode 255) ∧ WellFormed (.setavg 0) ∧ WellFormed (.cal true) ∧ decode 0x13FF = .ok (.setavg 255) := by
  decide

/-- The premise of `IllegalWordReportsOnly` on the word. -/
abbrev NoRowMatches (w : Word16) : Prop :=
  w &&& 0xFF00 ∉ ([0x1000, 0x1100, 0x1200, 0x1300] : List Word16) ∧ w &&& 0xFFFE ≠ 0x3000 ∧
    w ∉ ([0x1800, 0x2000, 0x2100, 0x2200, 0x2300, 0x4000, 0x4100, 0x4200, 0x4300] : List Word16)

/-- The first word above `CAL`'s two, the all-zero word under ignored high bits, the last word. -/
theorem witness_IllegalWordReportsOnly :
    ({ State.reset with inputs := [.hostWrite 3 0x00003002] } : State).inputs = .hostWrite 3 0x00003002 :: [] ∧
    NoRowMatches ((0x00003002 : Reg).extractLsb' 0 16) ∧ NoRowMatches ((0x00010000 : Reg).extractLsb' 0 16) ∧
    NoRowMatches ((0x0000FFFF : Reg).extractLsb' 0 16) := ⟨rfl, by decide, by decide, by decide⟩

theorem witness_StepRunsDecodedCommand :
    (State.reset.withFetchWord 16 0x1303).inputs = .hostWrite 3 0x1303 :: [] ∧
    decode ((0x1303 : Reg).extractLsb' 0 16) = .ok (.setavg 3) := by decide

theorem witness_HostReadReturnsRegister :
    ∀ i ∈ ([0, 12, 13, 15] : List RegNo),
      ({ State.reset with inputs := [.hostRead i] } : State).inputs = .hostRead i :: [] := by decide

theorem witness_HostWriteStoresOperandsOnly :
    ∀ i ∈ ([0, 1, 2, 4, 15] : List RegNo),
      ({ State.reset with inputs := [.hostWrite i 5] } : State).inputs = .hostWrite i 5 :: [] ∧ i ≠ 3 := by decide

theorem witness_IdleBlockStays : State.reset.inputs = [] := by decide

theorem witness_ResetFromAnyState :
    ({ operands 5 6 [] with inputs := [.reset] } : State).inputs = .reset :: [] := by decide

theorem witness_CodecLaws :
    7 < 2 ^ CfgField.avg.wid ∧ 0 < 2 ^ CfgField.avg.wid ∧ 1 < 2 ^ CfgField.rst.wid ∧ CfgField.avg ≠ .rst := by decide

theorem witness_PackUnpack :
    1 < 2 ∧ 7 < 8 ∧
    [(CfgField.mode, 7), (.svct, 7), (.bvct, 7), (.avg, 7), (.rst, 1)].Perm
      [(.rst, 1), (.avg, 7), (.bvct, 7), (.svct, 7), (.mode, 7)] := by decide

/-- The last selector, the first ignored operand, the last encodable one. -/
theorem witness_SetFieldCommands : 7 ≤ 7 ∧ 7 < 8 ∧ 255 < 256 := by decide

/-- Just past 80 mV; exactly 80 mV with a low current; the least legal current with a low shunt. -/
theorem witness_CalPreconditionFailures :
    80000000000 < (operands 80000001 1000 []).maxi.toNat * (operands 80000001 1000 []).shunt.toNat ∧
    ((operands 999 80080080 []).maxi.toNat * (operands 999 80080080 []).shunt.toNat ≤ 80000000000 ∧
      (operands 999 80080080 []).maxi.toNat < 1000) ∧
    ((operands 1000 999 []).maxi.toNat * (operands 1000 999 []).shunt.toNat ≤ 80000000000 ∧
      1000 ≤ (operands 1000 999 []).maxi.toNat ∧ (operands 1000 999 []).shunt.toNat < 1000) := by decide

theorem witness_CalPlainResult : ChecksPass (operands 1000 1000 []) ∧ ChecksPass (operands 80000000 1000 []) := by decide

theorem witness_CalNormalizedResult :
    ChecksPass (operands 1000 80000000 []) ∧ ChecksPass (operands 32768000 2000 []) := by decide

theorem witness_SnapIsLeastMember : snap125 5000 = some 5000 ∧ snap125 5001 = none := by decide

theorem witness_NormalizationNeverFails :
    ChecksPass (operands 80000000 1000 []) ∧ (nextOf (exec (.cal true) (operands 80000000 1000 [.ok]))).isSome := by decide

/-- A successful `CAL` with the most auto-scaling, one with none, one normalised. -/
theorem witness_CalScaleBounds :
    (nextOf (exec (.cal false) (operands 1000 1000 [.ok]))).map (fun t => (t.status, t.aux)) = some (0x0000, 12) ∧
    (nextOf (exec (.cal false) (operands 80000000 1000 [.ok]))).map (fun t => (t.status, t.aux)) = some (0x0000, 0) ∧
    (nextOf (exec (.cal true) (operands 1000 78126 [.ok]))).map (fun t => (t.status, t.aux)) = some (0x0000, 0) := by decide

/-- A success without normalisation and one with. -/
theorem witness_FullScaleCoversRequest :
    (nextOf (exec (.cal false) (operands 10000 1000 [.ok]))).map State.status = some 0x0000 ∧
    (nextOf (exec (.cal true) (operands 10000 1000 [.ok]))).map State.status = some 0x0000 := by decide

/-- One success with `k = 0` and the one-count case of R140 with `k = 1`. -/
theorem witness_RoundTripLaw :
    (nextOf (exec (.cal false) (operands 20000000 2000 [.ok]))).map (fun t => (t.status, t.aux)) = some (0x0000, 0) ∧
    (nextOf (exec (.cal false) (operands 2283662 1016 [.ok]))).map (fun t => (t.status, t.aux)) = some (0x0000, 1) := by
  decide

/-- Checks that pass, with a write the device refuses and one it accepts, and a check that fails by one. -/
theorem witness_CalibFloor :
    ChecksPass (operands 1000 80000000 []) ∧ ¬ ChecksPass (operands 1000 999 []) ∧
    (nextOf (exec (.cal true) (operands 1000 999 []))).isSome ∧ (nextOf (exec (.cal true) (operands 1000 80000000 [.fail]))).isSome ∧
    (nextOf (exec (.cal false) (operands 1000 80000000 [.ok]))).isSome := by decide

theorem witness_TimeoutFormula :
    convUs Config.defaultParams ⟨7, 7, 7, 4⟩ = 0 ∧ convUs Config.defaultParams ⟨0, 0, 0, 1⟩ ≠ 0 ∧
    Config.defaultParams.measBus.measures 7 = 1 ∧ Config.defaultParams.measShunt.measures 7 = 1 := by decide

theorem witness_PowerDownMeasuresNothing : (0 : Sel) = 0 ∧ (4 : Sel) = 4 := by decide

/-- Ready at the last poll, ready at the first with `TMO = 0`, and never ready. -/
theorem witness_CallerTimeoutWait :
    ((∀ k < 3, ¬ ReadyAt { sample [0, 0, 0, 8] [] with tmo := 3 } k) ∧ ReadyAt { sample [0, 0, 0, 8] [] with tmo := 3 } 3) ∧
    ReadyAt (sample [8] []) 0 ∧
    (∀ k ≤ 3, ¬ ReadyAt { sample [0, 0, 0, 0] [] with tmo := 3 } k) := by decide

/-- The fast path; ready at the last loop poll; never ready (`T = 2`). -/
theorem witness_ComputedTimeoutWait :
    ReadyAt (sample [8] []) 0 ∧ tmoEst (sample [] []).params (sample [] []).cache = 2 ∧
    (¬ ReadyAt (sample [0, 0, 0, 8] []) 0 ∧ (∀ k < 2, ¬ ReadyAt (sample [0, 0, 0, 8] []) (k + 1)) ∧
      ReadyAt (sample [0, 0, 0, 8] []) (2 + 1)) ∧
    (¬ ReadyAt (sample [0, 0, 0, 0] []) 0 ∧ ∀ k ≤ 2, ¬ ReadyAt (sample [0, 0, 0, 0] []) (k + 1)) := by decide

/-- Two states with the same answers, `TMO`, cache and parameters and different registers. -/
theorem witness_WaiterKeepsNothing :
    let s := sample [0, 8] []
    let s' := { sample [0, 8] [] with value := 7, currentLsb := 9, maxi := 3 }
    (∀ k, s.readAt k = s'.readAt k) ∧ s.tmo = s'.tmo ∧ s.cache = s'.cache ∧ s.params = s'.params ∧ s ≠ s' ∧
      (∃ t, exec .isrdy s = .next t) ∧ (∃ t, exec .waitt s = .next t) ∧ (∃ t, exec .waitc s = .next t) :=
  ⟨fun _ => rfl, rfl, rfl, rfl, by decide, ⟨_, rfl⟩, ⟨_, rfl⟩, ⟨_, rfl⟩⟩

/-- Every command has a next state from reset: the hypothesis of the statements about all commands. -/
theorem witness_CommandsKeepOperands : ∃ t, exec (.cal true) State.reset = .next t := ⟨_, rfl⟩

theorem witness_CalibrationWrittenByCalOnly :
    (∃ t, exec .srst State.reset = .next t) ∧ ∀ n, Instr.srst ≠ .cal n := ⟨⟨_, rfl⟩, by decide⟩

theorem witness_CacheFieldWrittenByItsCommands :
    (∃ t, exec (.setmode 3) State.reset = .next t) ∧ (∀ v, Instr.setmode 3 ≠ setCommand .avg v) ∧
      Instr.setmode 3 ≠ getCommand .avg := ⟨⟨_, rfl⟩, (fun v h => nomatch h), by decide⟩

/-- A write the device accepts, one it refuses, and a read. -/
theorem witness_CacheFollowsDevice :
    (sample [0x4127] [.ok]).nextWrite = .ok ∧ (sample [0x4127] [.fail]).nextWrite = .fail ∧
    (nextOf (exec (setCommand .avg 7) (sample [0x4127] [.ok]))).isSome ∧
    (nextOf (exec (getCommand .avg) (sample [0x4127] []))).isSome := by decide

theorem witness_CommandStatusCodes : ∃ t, exec .waitc State.reset = .next t := ⟨_, rfl⟩

/-- A failed check and a failed write. -/
theorem witness_FailureLeavesState :
    (nextOf (exec (.cal false) (operands 0 0 []))).map State.failed = some true ∧
    (nextOf (exec (.setavg 5) (sample [0x4127] [.fail]))).map State.failed = some true := by decide

theorem witness_CommandsStayOnThreeRegisters : ∃ t, exec .waitt State.reset = .next t := ⟨_, rfl⟩

/-- The clauses of the table: a `SETx` at 7 and at 8, `CAL` with passing and failing checks, `WAITC` ready and not, and
an illegal word. -/
theorem witness_AccessesOfEachCommand :
    (nextOf (exec (.setavg 7) (sample [0] [.ok]))).isSome ∧ (nextOf (exec (.setavg 8) (sample [0] [.ok]))).isSome ∧
    (ChecksPass (operands 1000 1000 [.ok]) ∧ ¬ ChecksPass (operands 1000 999 [.ok])) ∧
    (ReadyAt (sample [8] []) 0 ∧ ¬ ReadyAt (sample [0] []) 0) ∧
    decode (commandWord 0x3002) = .error .calOperand ∧ (nextOf (runCommand 0x3002 State.reset)).isSome := by decide

/-- The state reset gives meets every invariant, and a step from it answers next. -/
theorem reset_meets_invariants : Inv State.reset := ⟨by decide, .inl ⟨rfl, rfl, rfl, rfl⟩, rfl⟩

/-- A calibrated state meets them too: the source's example after `CAL #0`. -/
theorem calibrated_meets_invariant :
    Calibrated { sample [] [] with
      currentLsb := 20000000, maxCurrentC := 20000000, shuntC := 2000, cal := 4194 } :=
  ⟨by decide, by decide, rfl, by decide, false, 20000000, 0, by decide, by decide⟩

theorem witness_StepKeepsStatusLegal :
    StatusLegal State.reset ∧ ∃ t, step (State.reset.withFetchWord 16 0x1303) = .next t := ⟨by decide, _, rfl⟩

theorem witness_StepKeepsCalibrationConsistent :
    CalibrationConsistent ({ sample [] [] with
      currentLsb := 20000000, maxCurrentC := 20000000, shuntC := 2000, cal := 4194 }) ∧
    ∃ t, step (State.reset.withFetchWord 16 0x3001) = .next t :=
  ⟨.inr calibrated_meets_invariant, _, rfl⟩

theorem witness_StepKeepsCalMirror :
    CalMirrorsDevice State.reset ∧ ∃ t, step (State.reset.withFetchWord 16 0x3000) = .next t := ⟨rfl, _, rfl⟩

theorem witness_StepKeepsParameters : ∃ t, step (State.reset.withFetchWord 16 0x4300) = .next t := ⟨_, rfl⟩

theorem witness_EveryRunKeepsInvariants : Inv State.reset := reset_meets_invariants

end Sys2Proof.Tests
end

section
/-! PROOFS. Scope: what a step does when the host has no action to come (00_scope.md R12, log 6). -/

namespace Sys2Proof.Machine

/-- The first equation of `step`: with no input left it is `idle`, which changes nothing (log 6). -/
theorem step_of_inputs_nil {s : State} (hnil : s.inputs = []) : step s = .next s := by
  simp only [step, hnil, idle]

/-- Settles O8: the empty input list takes the idle branch of `step`. -/
theorem idleBlockStays : Obligations.IdleBlockStays :=
  fun _ hnil => step_of_inputs_nil hnil

end Sys2Proof.Machine
end

section
/-! PROOFS. Scope: the state of the block (10_state.md): which command and which input writes which register, and the
invariants every step and every run keep. -/

namespace Sys2Proof.Machine

open Sys2Proof.Safety

/-! Layer: the host port. -/

/-- The second equation of `step`: the next input is taken and run. -/
theorem step_of_inputs_cons {s : State} {a : Input} {rest : List Input} (h : s.inputs = a :: rest) :
    step s = runInput a (s.withInputs rest) := by
  simp only [step, h]

/-- Every step of every state ends in a next state (60_exceptions.md R170). -/
theorem step_next (s : State) : ∃ t, step s = .next t := by
  cases hs : s.inputs with
  | nil => exact ⟨s, step_of_inputs_nil hs⟩
  | cons a rest =>
    rw [step_of_inputs_cons hs]
    cases a with
    | reset => exact ⟨_, rfl⟩
    | hostRead i => exact ⟨_, rfl⟩
    | hostWrite i d =>
      simp only [runInput, runCommand]
      split_ifs
      · split
        · exact exec_next _ _
        · exact ⟨_, rfl⟩
      · exact ⟨_, rfl⟩

/-- The command word is bits 15:0 of the data (20_memory.md R51). -/
theorem commandWord_eq_extractLsb' (d : Reg) : commandWord d = d.extractLsb' 0 16 :=
  BitVec.setWidth_eq_extractLsb' (by decide)

/-- The sixteen register numbers in order, each register zero-extended to the width of the port; `CMD` and the reserved
numbers read 0 (10_state.md R20, R40). -/
def registers (s : State) : List Reg :=
  [s.maxi, s.shunt, s.tmo, 0, 0#16 ++ s.status, s.value, s.aux, s.currentLsb, s.shuntC, s.maxCurrentC,
    0#16 ++ s.cal, 0#20 ++ s.cache.pack, 0#24 ++ s.params.devAddr, 0, 0, 0]

/-- A host read looks its number up in `registers`. -/
theorem readReg_eq_registers (i : RegNo) (s : State) : readReg i s = (registers s).getD i.toNat 0 := by
  have hi : i.toNat < 16 := i.isLt
  simp only [readReg, BitVec.setWidth_eq_append (show 16 ≤ 32 by decide),
    BitVec.setWidth_eq_append (show 12 ≤ 32 by decide), BitVec.setWidth_eq_append (show 8 ≤ 32 by decide)]
  generalize i.toNat = k at hi
  interval_cases k <;> rfl

/-- A host write outside `CMD`, with everything it changes (20_memory.md R51). -/
theorem hostWrite_eq (i : RegNo) (d : Reg) (s : State) :
    hostWrite i d s = { s with
      maxi := if i = 0 then d else s.maxi
      shunt := if i = 1 then d else s.shunt
      tmo := if i = 2 then d else s.tmo } := by
  have hi : i.toNat < 16 := i.isLt
  simp only [hostWrite, BitVec.toNat_eq]
  generalize i.toNat = k at hi
  interval_cases k <;> rfl

/-! Layer: `CAL`. -/

/-- A computation that reaches the write has passed the checks, and hands over the auto-scaled quotient. -/
theorem calCompute_ok_inv {n : Bool} {M S : Nat} {r : Scaled} (h : calCompute n M S = .ok r) :
    precheck M S = none ∧ ∃ L, scaleFactor n M S = some L ∧ r = autoScale (calibValue L S) L := by
  cases hp : precheck M S with
  | some e => simp [calCompute, hp] at h
  | none =>
    obtain ⟨L, hL, hc⟩ := calCompute_ok (n := n) hp
    exact ⟨rfl, L, hL, by simpa [hc] using h.symm⟩

/-- The scale factor before auto-scaling: positive, and at most 5000 microamperes per count (R128, R135). -/
theorem scaleFactor_bounds {n : Bool} {M S L : Nat} (hp : precheck M S = none) (h : scaleFactor n M S = some L) :
    0 < L ∧ L ≤ 163840000 := by
  cases n with
  | false =>
    obtain ⟨-, hM, -⟩ := (precheck_none M S).mp hp
    have hle := (operand_le hp).1
    obtain rfl : M = L := by simpa [scaleFactor] using h
    omega
  | true =>
    obtain ⟨-, m, hm⟩ := normalization_defined hp
    obtain rfl : 32768 * m = L := by simpa [scaleFactor, hm] using h
    have hmem : ∀ m ∈ sequence125, 0 < m ∧ m ≤ 5000 := by decide
    have := hmem m (snap125_spec hm).1
    omega

/-- Auto-scaling ends with a register value of 16 bits and a scale factor below `2^28`: the last halving started from a
quotient above 65535, so the final scale factor times `S` is at most `2 * 167772160000000 / 65535` (R131, R139). -/
theorem autoScale_bounds {L S : Nat} (hL : 0 < L) (hle : L ≤ 163840000) (hS : 1000 ≤ S) :
    0 < (autoScale (calibValue L S) L).lsb ∧ (autoScale (calibValue L S) L).lsb < 2 ^ 28 ∧
      (autoScale (calibValue L S) L).calib ≤ 65535 := by
  obtain ⟨k, he, hc, hbig⟩ := autoScale_spec (calibValue L S) L
  rw [he]
  refine ⟨Nat.mul_pos hL (by positivity), ?_, hc⟩
  cases k with
  | zero => simp only [pow_zero, mul_one]; omega
  | succ j =>
    have hq : 65536 ≤ calibValue L S / 2 ^ j := hbig j j.lt_succ_self
    rw [Nat.le_div_iff_mul_le (by positivity), calibValue, Nat.le_div_iff_mul_le (by positivity)] at hq
    have hLS : L * S ≤ L * 2 ^ j * S := Nat.mul_le_mul_right S (Nat.le_mul_of_pos_right L (by positivity))
    have h1000 : L * 2 ^ j * 1000 ≤ L * 2 ^ j * S := Nat.mul_le_mul_left _ hS
    have hq' : 131072 * (L * 2 ^ j * S) ≤ 2 * 167772160000000 + L * S := by linarith
    change L * 2 ^ (j + 1) < 2 ^ 28
    rw [pow_succ, ← mul_assoc]
    omega

/-- What is written is at least 1 and below `2^28` for the scale factor, 16 bits for the register (R131, R139). -/
theorem calCompute_bounds {n : Bool} {M S : Nat} {r : Scaled} (h : calCompute n M S = .ok r) :
    0 < r.lsb ∧ r.lsb < 2 ^ 28 ∧ r.calib ≤ 65535 := by
  obtain ⟨hp, L, hL, rfl⟩ := calCompute_ok_inv h
  obtain ⟨hpos, hle⟩ := scaleFactor_bounds hp hL
  obtain ⟨-, -, hS⟩ := (precheck_none M S).mp hp
  exact autoScale_bounds hpos hle hS

/-! Layer: the set and get commands by field. -/

/-- The set command of a field runs `setField` on it (R106 to R109). -/
theorem exec_setCommand (f : Selector) (v : Nat) (s : State) : exec (setCommand f v) s = .next (setField f v s) := by
  cases f <;> rfl

/-- The get command of a field runs `getField` on it (R111 to R114). -/
theorem exec_getCommand (f : Selector) (s : State) : exec (getCommand f) s = .next (getField f s) := by
  cases f <;> rfl

section Commands

/-! Layer: what a command does to each part of the state, read off `Ends`. -/

variable {i : Instr} {s t : State}

/-- No command touches the operand registers, the parameters or the inputs to come (10_state.md R21, R31). -/
theorem Ends.operands_kept (h : Ends i s t) :
    t.maxi = s.maxi ∧ t.shunt = s.shunt ∧ t.tmo = s.tmo ∧ t.params = s.params ∧ t.inputs = s.inputs := by
  cases h <;> exact ⟨rfl, rfl, rfl, rfl, rfl⟩

/-- The four calibration registers of `t` are those of `s`. -/
def SameCalibration (s t : State) : Prop :=
  t.currentLsb = s.currentLsb ∧ t.shuntC = s.shuntC ∧ t.maxCurrentC = s.maxCurrentC ∧ t.cal = s.cal

/-- `i` is a `CAL` that passed its checks and whose write the device accepted, and `t` is the state it leaves. -/
def CalAccepted (i : Instr) (s t : State) : Prop :=
  ∃ n r, i = .cal n ∧ calCompute n s.maxi.toNat s.shunt.toNat = .ok r ∧ s.nextWrite = .ok ∧
    t = calOutcome s r.lsb r.calib r.shifts

/-- A refused write of `CAL` leaves the calibration registers (R134). -/
theorem calOutcome_sameCalibration_of_fail (h : s.nextWrite = .fail) (L c k : Nat) :
    SameCalibration s (calOutcome s L c k) := by
  simp [SameCalibration, calOutcome, h]

/-- Only an accepted `CAL` writes the calibration registers (10_state.md R28). -/
theorem Ends.calibration_kept_or_accepted (h : Ends i s t) : SameCalibration s t ∨ CalAccepted i s t := by
  cases h with
  | ignored | set | got | softReset | calRejected | estimated | waited => exact .inl ⟨rfl, rfl, rfl, rfl⟩
  | calOffered n L r hi hp hL hr =>
    cases hw : s.nextWrite with
    | fail => exact .inl (calOutcome_sameCalibration_of_fail hw _ _ _)
    | ok => exact .inr ⟨n, r, hi, by simp [calCompute, hp, hL, hr], hw, rfl⟩

/-- `i` is the `SETx` or the `GETx` of field `f`. -/
def AccessesField (i : Instr) (f : Selector) : Prop := (∃ v, i = setCommand f v) ∨ i = getCommand f

/-- A command leaves the cache, or it succeeds and writes the one field it accesses (10_state.md R29, R30). -/
theorem Ends.cache_kept_or_set (h : Ends i s t) :
    t.cache = s.cache ∨ ∃ f v, AccessesField i f ∧ t.status = 0x0000 ∧ t.cache = s.cache.set f v := by
  cases h with
  | ignored | calRejected | calOffered | estimated | waited => exact .inl rfl
  | softReset => exact .inl (ite_self _)
  | got f v hi => exact .inr ⟨f, v, .inr hi, rfl, rfl⟩
  | set f v hi =>
    cases hw : s.nextWrite with
    | fail => exact .inl (by simp [rmwOutcome, hw])
    | ok => exact .inr ⟨f, BitVec.ofNat 3 v, .inl ⟨v, hi⟩, by simp [rmwOutcome, hw]⟩

/-! Layer: the commands keep the invariants. -/

/-- Every code is one of the seven (30_encoding.md R84). -/
theorem code_mem_statusCodes (st : Status) : st.code ∈ statusCodes := by
  cases st <;> decide

/-- Every command leaves a legal `STATUS`. -/
theorem Ends.statusLegal (h : Ends i s t) : StatusLegal t := by
  have hwrite : (if s.nextWrite = .ok then 0x0000 else 0x8004) ∈ statusCodes := by
    cases s.nextWrite with
    | ok => exact code_mem_statusCodes .ok
    | fail => exact code_mem_statusCodes .writeFailed
  cases h with
  | ignored | got | estimated | waited => exact code_mem_statusCodes .ok
  | calRejected n e => exact code_mem_statusCodes e
  | set | softReset | calOffered => exact hwrite

/-- The invariant speaks of the four calibration registers only. -/
theorem SameCalibration.consistent (h : SameCalibration s t) (hs : CalibrationConsistent s) :
    CalibrationConsistent t := by
  obtain ⟨hlsb, hshunt, hmax, hcal⟩ := h
  simpa only [CalibrationConsistent, Uncalibrated, Calibrated, hlsb, hshunt, hmax, hcal] using hs

/-- An accepted `CAL` leaves the registers of one successful `CAL`: by the bounds no bit is lost in them (R139). -/
theorem CalAccepted.calibrated (h : CalAccepted i s t) : Calibrated t := by
  obtain ⟨n, r, -, hr, hw, rfl⟩ := h
  obtain ⟨hpos, hlsb, hcalib⟩ := calCompute_bounds hr
  obtain ⟨-, -, hS⟩ := (precheck_none _ _).mp (calCompute_ok_inv hr).1
  have hlsb32 : (BitVec.ofNat 32 r.lsb).toNat = r.lsb := by rw [BitVec.toNat_ofNat]; omega
  have hcal16 : (BitVec.ofNat 16 r.calib).toNat = r.calib := by rw [BitVec.toNat_ofNat]; omega
  simp only [Calibrated, calOutcome, hw, if_true, hlsb32, hcal16]
  have hne : BitVec.ofNat 32 r.lsb ≠ 0 := fun h0 => hpos.ne (by rw [← hlsb32, h0]; rfl)
  exact ⟨hne, hlsb, trivial, hS, n, s.maxi.toNat, r.shifts, s.maxi.isLt, hr⟩

/-- Every command keeps the calibration registers consistent. -/
theorem Ends.keeps_calibrationConsistent (h : Ends i s t) (hs : CalibrationConsistent s) :
    CalibrationConsistent t := by
  rcases h.calibration_kept_or_accepted with hsame | hacc
  · exact hsame.consistent hs
  · exact .inr hacc.calibrated

/-- Events that are no write and no reset do not change what was last accepted. -/
theorem lastAccepted_append_of_wait {evs : List Event} {dev : Addr} (a : Addr) (rest : List Event)
    (h : ∀ e ∈ evs, e = .sleep ∨ ∃ v, e = .memRead dev 0x06 v) :
    lastAccepted a (evs ++ rest) = lastAccepted a rest := by
  induction evs with
  | nil => rfl
  | cons e evs ih =>
    obtain ⟨he, hevs⟩ := List.forall_mem_cons.mp h
    rcases he with rfl | ⟨v, rfl⟩ <;> exact ih hevs

/-- A read-modify-write of the configuration register leaves `CAL` and what was last accepted at 0x05. -/
theorem rmwOutcome_calMirrorsDevice (hs : CalMirrorsDevice s) (w : Word16) (c : CfgCache) :
    CalMirrorsDevice (rmwOutcome s w c) := by
  simpa [CalMirrorsDevice, rmwOutcome, lastAccepted] using hs

/-- `CAL` stores the word it offers exactly when the device accepts it (R133, R134). -/
theorem calOutcome_calMirrorsDevice (hs : CalMirrorsDevice s) (L c k : Nat) :
    CalMirrorsDevice (calOutcome s L c k) := by
  unfold CalMirrorsDevice at hs
  cases hw : s.nextWrite <;> simp [CalMirrorsDevice, calOutcome, lastAccepted, hw, hs]

/-- Every command keeps `CAL` equal to the last value the device accepted at 0x05. -/
theorem Ends.keeps_calMirrorsDevice (h : Ends i s t) (hs : CalMirrorsDevice s) : CalMirrorsDevice t := by
  cases h with
  | ignored | got | calRejected | estimated => exact hs
  | set | softReset => exact rmwOutcome_calMirrorsDevice hs _ _
  | calOffered => exact calOutcome_calMirrorsDevice hs _ _ _
  | waited ready n reads evs hi he => exact hs.trans (lastAccepted_append_of_wait _ _ he).symm

end Commands

/-! The commands' obligations. -/

/-- Settles O38, by the frame of every way a command can end. -/
theorem commandsKeepOperands : Obligations.CommandsKeepOperands :=
  fun _ _ _ h => (exec_ends h).operands_kept

/-- Settles O39: the one command that writes a calibration register is an accepted `CAL`. -/
theorem calibrationWrittenByCalOnly : Obligations.CalibrationWrittenByCalOnly := by
  intro i s t h hne
  rcases (exec_ends h).calibration_kept_or_accepted with hsame | ⟨n, r, hi, -⟩
  · exact hsame
  · exact absurd hi (hne n)

/-- Settles O40: the field a command writes is the one it accesses, which is another. -/
theorem cacheFieldWrittenByItsCommands : Obligations.CacheFieldWrittenByItsCommands := by
  intro f i s t h hset hget
  rcases (exec_ends h).cache_kept_or_set with hc | ⟨g, v, hg, -, hc⟩
  · rw [hc]
  · have hfg : f ≠ g := by
      rintro rfl
      rcases hg with ⟨v, hi⟩ | hi
      · exact hset v hi
      · exact hget hi
    rw [hc, get_set_other _ _ hfg]

/-- Settles O41, from the outcomes of the read-modify-write and of the read. -/
theorem cacheFollowsDevice : Obligations.CacheFollowsDevice := by
  intro f v s t hv
  refine ⟨fun h => ?_, fun h => ?_⟩
  · rw [exec_setCommand, setField_acts f s hv] at h
    cases h
    refine ⟨fun hok => ⟨by simp [rmwOutcome, hok], s.params.devAddr, cfgInsert (s.readAt 0) f.field v,
      .memRead s.params.devAddr 0x00 (s.readAt 0) :: s.trace, by simp only [rmwOutcome, hok],
      extract_insert_selector _ f v hv⟩, fun hfail => by simp [rmwOutcome, hfail]⟩
  · rw [exec_getCommand, getField_eq] at h
    cases h
    simp only [getOutcome, get_set_same, cfgExtract_slice, BitVec.toNat_setWidth_of_le (show 3 ≤ 16 by decide)]

/-- Settles O43: whatever writes the cache or the calibration registers reports `ST_OK`. -/
theorem failureLeavesState : Obligations.FailureLeavesState := by
  intro i s t h hfail
  have hne : t.status ≠ 0x0000 := fun h0 => by simp [h0] at hfail
  refine ⟨?_, ?_⟩
  · rcases (exec_ends h).cache_kept_or_set with hc | ⟨-, -, -, hok, -⟩
    · exact hc
    · exact absurd hok hne
  · rcases (exec_ends h).calibration_kept_or_accepted with hsame | ⟨n, r, -, -, hw, rfl⟩
    · exact hsame
    · exact absurd (if_pos hw) hne

/-! The host port's obligations. -/

/-- Settles O5: `runCommand` on the low half of the data. -/
theorem stepRunsDecodedCommand : Obligations.StepRunsDecodedCommand := by
  intro s d rest i hs hd
  rw [← commandWord_eq_extractLsb'] at hd
  rw [step_of_inputs_cons hs]
  simp only [runInput, regCmd, if_true, runCommand, hd]
  rfl

/-- Settles O6, by the register file a host read looks up. -/
theorem hostReadReturnsRegister : Obligations.HostReadReturnsRegister := by
  intro s i rest hs
  rw [step_of_inputs_cons hs]
  simp only [runInput, hostRead, readReg_eq_registers]
  rfl

/-- Settles O7, by the equation of a host write. -/
theorem hostWriteStoresOperandsOnly : Obligations.HostWriteStoresOperandsOnly := by
  intro s i d rest hs hi
  rw [step_of_inputs_cons hs, runInput, if_neg (show i ≠ regCmd from hi), hostWrite_eq]
  rfl

/-! The steps' obligations. -/

/-- Settles O51: no input and no command writes the parameters. -/
theorem stepKeepsParameters : Obligations.StepKeepsParameters := by
  intro s t h
  refine step_keeps (fun u => u.params = s.params) ?onReset ?onTake ?onRead ?onWrite ?onIllegal ?onCommand rfl h
  case onReset => exact fun _ hu => hu
  case onTake => exact fun _ _ hu => hu
  case onRead => exact fun _ _ hu => hu
  case onWrite => exact fun i d u hu => by rw [hostWrite_eq]; exact hu
  case onIllegal => exact fun _ hu => hu
  case onCommand =>
    intro i u u' hu hexec
    obtain ⟨-, -, -, hp, -⟩ := (exec_ends hexec).operands_kept
    exact hp.trans hu

/-- Every step keeps `STATUS` at one of the seven codes (30_encoding.md R84). -/
theorem step_keeps_statusLegal {s t : State} (hs : StatusLegal s) (h : step s = .next t) : StatusLegal t := by
  refine step_keeps StatusLegal ?onReset ?onTake ?onRead ?onWrite ?onIllegal ?onCommand hs h
  case onReset => exact fun _ _ => code_mem_statusCodes .ok
  case onTake => exact fun _ _ hu => hu
  case onRead => exact fun _ _ hu => hu
  case onWrite => exact fun i d u hu => by rw [hostWrite_eq]; exact hu
  case onIllegal => exact fun _ _ => code_mem_statusCodes .illegalCmd
  case onCommand => exact fun _ _ _ _ hexec => (exec_ends hexec).statusLegal

/-- Settles O49: reset clears the four registers, an accepted `CAL` writes them together, nothing else writes them. -/
theorem stepKeepsCalibrationConsistent : Obligations.StepKeepsCalibrationConsistent := by
  intro s t hs h
  refine step_keeps CalibrationConsistent ?onReset ?onTake ?onRead ?onWrite ?onIllegal ?onCommand hs h
  case onReset => exact fun _ _ => .inl ⟨rfl, rfl, rfl, rfl⟩
  case onTake => exact fun _ _ hu => hu
  case onRead => exact fun _ _ hu => hu
  case onWrite => exact fun i d u hu => by rw [hostWrite_eq]; exact hu
  case onIllegal => exact fun _ hu => hu
  case onCommand => exact fun _ _ _ hu hexec => (exec_ends hexec).keeps_calibrationConsistent hu

/-- Settles O50: reset clears both sides, `CAL` and the device take a word together, and no other event is a write at
0x05. -/
theorem stepKeepsCalMirror : Obligations.StepKeepsCalMirror := by
  intro s t hs h
  refine step_keeps CalMirrorsDevice ?onReset ?onTake ?onRead ?onWrite ?onIllegal ?onCommand hs h
  case onReset => exact fun _ _ => rfl
  case onTake => exact fun _ _ hu => hu
  case onRead => exact fun _ _ hu => hu
  case onWrite => exact fun i d u hu => by rw [hostWrite_eq]; exact hu
  case onIllegal => exact fun _ hu => hu
  case onCommand => exact fun _ _ _ hu hexec => (exec_ends hexec).keeps_calMirrorsDevice hu

/-! The runs. -/

/-- Every step keeps the three invariants. -/
theorem step_keeps_inv {s t : State} (hs : Inv s) (h : step s = .next t) : Inv t := by
  obtain ⟨hstatus, hcal, hmirror⟩ := hs
  exact ⟨step_keeps_statusLegal hstatus h, stepKeepsCalibrationConsistent s t hcal h,
    stepKeepsCalMirror s t hmirror h⟩

/-- A run of any length completes, and keeps what every step keeps. -/
theorem run_keeps (P : State → Prop) (hstep : ∀ s t, P s → step s = .next t → P t) (k : Nat) (s : State)
    (hs : P s) : ∃ t, core.run k s = .next t ∧ P t := by
  induction k generalizing s with
  | zero => exact ⟨s, rfl, hs⟩
  | succ k ih =>
    obtain ⟨u, hu⟩ := step_next s
    obtain ⟨t, ht, hPt⟩ := ih u (hstep s u hs hu)
    refine ⟨t, ?_, hPt⟩
    have hu' : core.step s = .next u := hu
    simpa only [Host.Core.run, hu'] using ht

/-- Settles O52, by induction on the number of steps. -/
theorem everyRunKeepsInvariants : Obligations.EveryRunKeepsInvariants :=
  run_keeps Inv fun _ _ => step_keeps_inv

/-! Reset. -/

/-- Settles O10: the definition of the reset state, `CFGCACHE` split into its fields. -/
theorem resetValues : Obligations.ResetValues :=
  fun _ => rfl

/-- Settles O47: `STATUS` is `ST_OK`, the calibration registers are 0, nothing has been written. -/
theorem invariantsHoldAtReset : Obligations.InvariantsHoldAtReset :=
  fun _ => ⟨code_mem_statusCodes .ok, .inl ⟨rfl, rfl, rfl, rfl⟩, rfl⟩

end Sys2Proof.Machine
end

section
/-! PROOFS. Scope: the accesses to the device register space (20_memory.md): the byte protocol of one access, and the
accesses each command makes, in order. -/

namespace Sys2Proof.Machine

open Sys2Proof.Safety

/-! Layer: the bytes of one access. -/

/-- Shifting the high byte up and joining the low byte is concatenation (R56). -/
theorem assembleBytes_eq_append (hi lo : BitVec 8) : assembleBytes hi lo = hi ++ lo := by
  have h := BitVec.setWidth_append_eq_shiftLeft_setWidth_or (b := hi) (b' := lo) (w'' := 16)
  rw [BitVec.setWidth_eq] at h
  exact h.symm

/-- The two bytes of a value, most significant first, assemble to the value (R56, R58). -/
theorem assembleBytes_extractLsb' (v : Word16) : assembleBytes (v.extractLsb' 8 8) (v.extractLsb' 0 8) = v := by
  rw [assembleBytes_eq_append]
  exact BitVec.extractLsb'_append_extractLsb'

/-- As a number the high byte counts 256 times. -/
theorem toNat_assembleBytes (hi lo : BitVec 8) : (assembleBytes hi lo).toNat = hi.toNat * 256 + lo.toNat := by
  rw [assembleBytes_eq_append, BitVec.toNat_append, ← Nat.shiftLeft_add_eq_or_of_lt lo.isLt, Nat.shiftLeft_eq]

/-- Settles O46: the transactions are the model's lists, and the bytes are assembled by concatenation. -/
theorem busBytesAreBigEndian : Obligations.BusBytesAreBigEndian :=
  fun _ _ v _ => ⟨rfl, rfl, assembleBytes_extractLsb' v, toNat_assembleBytes⟩

/-! Layer: the accesses between two states. -/

/-- From `s` to `t` the trace grew by events whose device accesses, oldest first, are `l`. -/
def Accessed (s t : State) (l : List (Bool × Addr)) : Prop :=
  ∃ evs, t.trace = evs ++ s.trace ∧ accesses evs = l

/-- The trace holds the newest event first, `accesses` the oldest: the later part stands first in one, last in the
other. -/
theorem accesses_append (later earlier : List Event) :
    accesses (later ++ earlier) = accesses earlier ++ accesses later := by
  induction later with
  | nil => exact (List.append_nil _).symm
  | cons e later ih => cases e <;> simp [accesses, ih]

/-- The accesses of two stretches follow each other. -/
theorem Accessed.trans {s t u : State} {l l' : List (Bool × Addr)} (h : Accessed s t l) (h' : Accessed t u l') :
    Accessed s u (l ++ l') := by
  obtain ⟨evs, ht, rfl⟩ := h
  obtain ⟨evs', hu, rfl⟩ := h'
  exact ⟨evs' ++ evs, by rw [hu, ht, List.append_assoc], accesses_append evs' evs⟩

/-- A read is one access (R54). -/
theorem memReadState_accessed (a : Addr) (s : State) : Accessed s (memReadState a s) [(true, a)] :=
  ⟨[_], rfl, rfl⟩

/-- A read-modify-write of the configuration register is its read, then its write (R105, R115). -/
theorem rmwOutcome_accessed (s : State) (w : Word16) (c : CfgCache) :
    Accessed s (rmwOutcome s w c) [(true, 0x00), (false, 0x00)] :=
  ⟨[_, _], rfl, rfl⟩

/-! Layer: the accesses of the shared procedures. -/

/-- An in-range set is a read-modify-write, an out-of-range one makes no access (R105). -/
theorem setField_accessed (f : Selector) (v : Nat) (s : State) :
    Accessed s (setField f v s) (if v ≤ 7 then [(true, 0x00), (false, 0x00)] else []) := by
  split_ifs with hv
  · rw [setField_acts f s hv]
    exact rmwOutcome_accessed _ _ _
  · rw [setField_ignored f s (Nat.lt_of_not_le hv)]
    exact ⟨[], rfl, rfl⟩

/-- A get is one read of the configuration register (R110). -/
theorem getField_accessed (f : Selector) (s : State) : Accessed s (getField f s) [(true, 0x00)] := by
  rw [getField_eq]
  exact ⟨[_], rfl, rfl⟩

/-- `SRST` is a read-modify-write of the configuration register (R115). -/
theorem softReset_accessed (s : State) : Accessed s (softReset s) [(true, 0x00), (false, 0x00)] := by
  rw [softReset_eq]
  exact rmwOutcome_accessed _ _ _

/-- `CAL` writes the calibration register once if its checks pass; normalisation cannot fail then (R120, R136). -/
theorem calibrate_accessed (n : Bool) (s : State) :
    Accessed s (calibrate n s) (if ChecksPass s then [(false, 0x05)] else []) := by
  have hchecks : precheck s.maxi.toNat s.shunt.toNat = none ↔ ChecksPass s := precheck_none _ _
  rcases calibrate_cases n s with ⟨e, he, hc⟩ | ⟨hp, L, -, hc⟩
  · rw [hc, if_neg (hchecks.not.mp (by simp [he]))]
    exact ⟨[], rfl, rfl⟩
  · rw [hc, calPersist_eq, if_pos (hchecks.mp hp)]
    exact ⟨[_], rfl, rfl⟩

/-- Each clear pass of the wait loop reads the mask/enable register once (R156). -/
theorem accesses_clearPasses (s : State) (n : Nat) : accesses (clearPasses s n) = List.replicate n (true, 0x06) := by
  induction n with
  | zero => rfl
  | succ n ih => rw [clearPasses, accesses, accesses, ih, List.replicate_succ']

/-- A wait of `T` units reads the mask/enable register between 1 and `T + 1` times (R156, R158). -/
theorem boundedWait_accessed (T : Nat) (s : State) :
    ∃ p, 1 ≤ p ∧ p ≤ T + 1 ∧ Accessed s (boundedWait T s) (List.replicate p (true, 0x06)) := by
  rcases boundedWait_cases T s with ⟨-, h⟩ | ⟨n, hn, -, -, h⟩
  · rw [h]
    exact ⟨T + 1, by omega, le_rfl, _, rfl, accesses_clearPasses s (T + 1)⟩
  · rw [h]
    exact ⟨n + 1, by omega, by omega, _, rfl, by rw [accesses, accesses_clearPasses, List.replicate_succ']⟩

/-- `WAITC` that finds the flag set has read the mask/enable register once (R160). -/
theorem computedWait_accessed_of_ready {s : State} (h : ReadyAt s 0) :
    Accessed s (computedWait s) [(true, 0x06)] := by
  have hready : readyFlag (s.readAt 0) = true := h
  rw [computedWait_eq, if_pos hready]
  exact memReadState_accessed _ _

/-- `WAITC` that finds the flag clear goes on to a wait of the estimated timeout (R160). -/
theorem computedWait_accessed_of_not_ready {s : State} (h : ¬ ReadyAt s 0) :
    ∃ p, 1 ≤ p ∧ p ≤ tmoEst s.params s.cache + 1 ∧
      Accessed s (computedWait s) (List.replicate (1 + p) (true, 0x06)) := by
  have hready : ¬ readyFlag (s.readAt 0) = true := h
  rw [computedWait_eq, if_neg hready]
  obtain ⟨p, hpos, hle, hacc⟩ := boundedWait_accessed (tmoEst s.params s.cache) (memReadState regMaskEnable s)
  refine ⟨p, hpos, hle, ?_⟩
  rw [List.replicate_add]
  exact (memReadState_accessed regMaskEnable s).trans hacc

/-- A word that is no command leaves the trace (30_encoding.md R74). -/
theorem runCommand_trace_of_illegal {s t : State} {d : Reg} {e : DecodeError}
    (hd : decode (commandWord d) = .error e) (h : runCommand d s = .next t) : t.trace = s.trace := by
  have ht : t = illegalCommand s := by simpa [runCommand, hd] using h.symm
  rw [ht]
  rfl

/-- Settles O45, row by row of the table of R60. -/
theorem accessesOfEachCommand : Obligations.AccessesOfEachCommand := by
  refine ⟨fun i s t h => ?_, fun s t d e hd h => runCommand_trace_of_illegal hd h⟩
  cases i with
  | setmode v => cases h; exact setField_accessed .mode v s
  | setsvct v => cases h; exact setField_accessed .svct v s
  | setbvct v => cases h; exact setField_accessed .bvct v s
  | setavg v => cases h; exact setField_accessed .avg v s
  | srst => cases h; exact softReset_accessed s
  | getmode => cases h; exact getField_accessed .mode s
  | getsvct => cases h; exact getField_accessed .svct s
  | getbvct => cases h; exact getField_accessed .bvct s
  | getavg => cases h; exact getField_accessed .avg s
  | cal n => cases h; exact calibrate_accessed n s
  | tmoest => cases h; exact ⟨[], rfl, rfl⟩
  | isrdy => cases h; exact memReadState_accessed regMaskEnable s
  | waitt =>
    cases h
    obtain ⟨p, hpos, hle, evs, ht, hacc⟩ := boundedWait_accessed s.tmo.toNat s
    exact ⟨evs, ht, p, hpos, hle, hacc⟩
  | waitc =>
    cases h
    by_cases hr : ReadyAt s 0
    · obtain ⟨evs, ht, hacc⟩ := computedWait_accessed_of_ready hr
      exact ⟨evs, ht, fun _ => hacc, fun hn => absurd hr hn⟩
    · obtain ⟨p, hpos, hle, evs, ht, hacc⟩ := computedWait_accessed_of_not_ready hr
      exact ⟨evs, ht, fun hy => absurd hy hr, fun _ => ⟨p, hpos, hle, hacc⟩⟩

end Sys2Proof.Machine
end

section
/-! PROOFS. Scope: the encoding of the commands (30_encoding.md): the decoder against the encoder and the opcode map, the
effect of an illegal word, the pseudo-instructions, the events of a command, the status codes and the mode tables. -/

namespace Sys2Proof.Machine

open Sys2Proof.Safety Sys2Proof.Laws

/-! Layer: the fields of a word. -/

/-- `imm8` of the command's word (30_encoding.md R70 to R73): 0 where the row has no operand. -/
def operand : Instr → Nat
  | .setmode v | .setsvct v | .setbvct v | .setavg v => v
  | .cal n => n.toNat
  | .srst | .getmode | .getsvct | .getbvct | .getavg | .tmoest | .isrdy | .waitt | .waitc => 0

/-- A command has an encoding when its operand fits in 8 bits. -/
theorem wellFormed_iff (i : Instr) : WellFormed i ↔ operand i < 256 := by
  cases i with
  | setmode | setsvct | setbvct | setavg => exact decide_eq_true_iff
  | cal n => cases n <;> decide
  | srst | getmode | getsvct | getbvct | getavg | tmoest | isrdy | waitt | waitc => decide

/-- `op` and `imm8` make up the word. -/
theorem eq_iff_fields_eq (w m : Word16) : w = m ↔ opField w = opField m ∧ immField w = immField m := by
  rw [BitVec.toNat_eq]
  unfold opField immField
  omega

/-- `imm8` is bits 7:0. -/
theorem immField_eq_extractLsb' (w : Word16) : immField w = (w.extractLsb' 0 8).toNat := by
  rw [BitVec.extractLsb'_toNat, Nat.shiftRight_zero]
  rfl

/-- `op[1:0]` is bits 9:8. -/
theorem opField_mod_four (w : Word16) : opField w % 4 = (w.extractLsb' 8 2).toNat := by
  rw [BitVec.extractLsb'_toNat, Nat.shiftRight_eq_div_pow]
  rfl

/-- A mask of the bits from `k` up clears the bits below. -/
theorem toNat_and_highMask (w : Word16) (k : Nat) :
    (w &&& BitVec.allOnes 16 <<< k).toNat = w.toNat / 2 ^ k * 2 ^ k := by
  have hle : w.toNat / 2 ^ k * 2 ^ k < 2 ^ 16 := (Nat.div_mul_le_self _ _).trans_lt w.isLt
  rw [← BitVec.shiftLeft_ushiftRight, BitVec.toNat_shiftLeft, BitVec.toNat_ushiftRight, Nat.shiftRight_eq_div_pow,
    Nat.shiftLeft_eq, Nat.mod_eq_of_lt hle]

/-- The mask of a row with an 8-bit operand keeps `op`. -/
theorem and_FF00 (w : Word16) : w &&& 0xFF00 = BitVec.ofNat 16 (opField w * 256) := by
  have hw : w.toNat < 2 ^ 16 := w.isLt
  rw [BitVec.toNat_eq, show (0xFF00 : Word16) = BitVec.allOnes 16 <<< 8 from rfl, toNat_and_highMask,
    BitVec.toNat_ofNat]
  unfold opField
  omega

/-- A word matches a row with an 8-bit operand when it has the row's `op`. -/
theorem and_FF00_eq_iff (w : Word16) {m : Word16} (hm : immField m = 0) :
    w &&& 0xFF00 = m ↔ opField w = opField m := by
  rw [and_FF00, BitVec.toNat_eq, BitVec.toNat_ofNat]
  unfold immField at hm
  unfold opField
  omega

/-- A word matches the row of `CAL` when it has the row's `op` and an `imm8` of one bit. -/
theorem and_FFFE_eq_iff (w : Word16) : w &&& 0xFFFE = 0x3000 ↔ opField w = 0x30 ∧ immField w < 2 := by
  rw [BitVec.toNat_eq, show (0xFFFE : Word16) = BitVec.allOnes 16 <<< 1 from rfl, toNat_and_highMask,
    show (0x3000 : Word16).toNat = 0x3000 from rfl]
  unfold opField immField
  omega

/-- An `imm8` of one bit is bit 0 of the word. -/
theorem immField_eq_toNat_iff (w : Word16) (n : Bool) :
    immField w = n.toNat ↔ immField w < 2 ∧ n = w.getLsbD 0 := by
  have hbit : w.getLsbD 0 = decide (immField w % 2 = 1) := by
    rw [BitVec.getLsbD, Nat.testBit_zero, immField, Nat.mod_mod_of_dvd _ (by decide)]
  rw [hbit]
  cases n with
  | false => simp only [Bool.toNat_false, Bool.false_eq, decide_eq_false_iff_not]; omega
  | true => simp only [Bool.toNat_true, Bool.true_eq, decide_eq_true_iff]; omega

/-! Layer: the decoder against the encoder. -/

/-- The fields of a well-formed command's word are its row's `op` and its operand. -/
theorem fields_encode {i : Instr} (h : WellFormed i) :
    opField (encode i) = opcode i ∧ immField (encode i) = operand i := by
  have hv : operand i < 256 := (wellFormed_iff i).mp h
  cases i with
  | setmode v => exact opField_or 0x10 (by decide) v hv
  | setsvct v => exact opField_or 0x11 (by decide) v hv
  | setbvct v => exact opField_or 0x12 (by decide) v hv
  | setavg v => exact opField_or 0x13 (by decide) v hv
  | cal n => cases n <;> decide
  | srst | getmode | getsvct | getbvct | getavg | tmoest | isrdy | waitt | waitc => decide

/-- A `C0` row decodes exactly with a zero operand (30_encoding.md R70). -/
theorem decodeC0_eq_ok_iff (imm : Nat) (i j : Instr) : decodeC0 imm i = .ok j ↔ imm = 0 ∧ i = j := by
  unfold decodeC0
  split_ifs with h <;> simp [h]

/-- `CAL` decodes exactly with the operand 0 or 1 (30_encoding.md R73). -/
theorem decodeCal_eq_ok_iff (imm : Nat) (j : Instr) :
    decodeCal imm = .ok j ↔ ∃ n : Bool, imm = n.toNat ∧ .cal n = j := by
  unfold decodeCal
  split_ifs with h0 h1 <;> simp [*]

/-- A decoded word has the fields of its command. -/
theorem fields_of_decode {w : Word16} {i : Instr} (h : decode w = .ok i) :
    opField w = opcode i ∧ immField w = operand i := by
  unfold decode at h
  split at h
  case h_1 hop | h_2 hop | h_3 hop | h_4 hop => cases h; exact ⟨hop, rfl⟩
  case h_10 hop =>
    obtain ⟨n, himm, rfl⟩ := (decodeCal_eq_ok_iff _ _).mp h
    exact ⟨hop, himm⟩
  case h_15 => cases h
  all_goals
    rename_i hop
    obtain ⟨himm, rfl⟩ := (decodeC0_eq_ok_iff _ _ _).mp h
    exact ⟨hop, himm⟩

/-- A well-formed command decodes from its word. -/
theorem decode_encode {i : Instr} (h : WellFormed i) : decode (encode i) = .ok i := by
  obtain ⟨hop, himm⟩ := fields_encode h
  unfold decode
  rw [hop, himm]
  cases i with
  | cal n => cases n <;> rfl
  | setmode | setsvct | setbvct | setavg => rfl
  | srst | getmode | getsvct | getbvct | getavg | tmoest | isrdy | waitt | waitc => rfl

/-- A word with a command's fields is its word, and the command is well formed. -/
theorem encode_of_fields {w : Word16} {i : Instr} (hop : opField w = opcode i) (himm : immField w = operand i) :
    WellFormed i ∧ encode i = w := by
  have hwf : WellFormed i := (wellFormed_iff i).mpr (himm ▸ Nat.mod_lt _ (by decide))
  obtain ⟨hop', himm'⟩ := fields_encode hwf
  exact ⟨hwf, (eq_iff_fields_eq _ _).mpr ⟨hop'.trans hop.symm, himm'.trans himm.symm⟩⟩

/-- The decoder read by fields: `op` selects the row, `imm8` is the operand. -/
theorem decode_eq_ok_iff (w : Word16) (i : Instr) :
    decode w = .ok i ↔ opField w = opcode i ∧ immField w = operand i := by
  refine ⟨fields_of_decode, fun ⟨hop, himm⟩ => ?_⟩
  obtain ⟨hwf, rfl⟩ := encode_of_fields hop himm
  exact decode_encode hwf

/-- Settles O2: the two fields of a word determine the command, and the command the two fields. -/
theorem decodeEncodeAgree : Obligations.DecodeEncodeAgree := by
  refine ⟨fun i => decode_encode, fun w i h => ?_⟩
  obtain ⟨hop, himm⟩ := fields_of_decode h
  exact encode_of_fields hop himm

/-! Layer: the decoder against the opcode map. -/

/-- A row with an 8-bit operand: the mask covers `op` (R71). -/
theorem decode_operandRow_iff {w m : Word16} {i : Instr} (hop : opcode i = opField m) (hm : immField m = 0) :
    decode w = .ok i ↔ w &&& 0xFF00 = m ∧ operand i = (w.extractLsb' 0 8).toNat := by
  rw [decode_eq_ok_iff, hop, and_FF00_eq_iff w hm, ← immField_eq_extractLsb', eq_comm (a := operand i)]

/-- A row without operand: the mask covers the whole word (R71). -/
theorem decode_plainRow_iff {w m : Word16} {i : Instr} (hop : opcode i = opField m) (himm : operand i = immField m) :
    decode w = .ok i ↔ w &&& 0xFFFF = m := by
  have hmask : w &&& 0xFFFF = w := BitVec.and_allOnes
  rw [decode_eq_ok_iff, hop, himm, hmask, eq_iff_fields_eq]

/-- The row of `CAL`: the mask leaves out bit 0, which is the operand (R71, R73). -/
theorem decode_calRow_iff (w : Word16) (n : Bool) :
    decode w = .ok (.cal n) ↔ w &&& 0xFFFE = 0x3000 ∧ n = w.getLsbD 0 := by
  rw [decode_eq_ok_iff, and_FFFE_eq_iff, and_assoc]
  exact and_congr_right fun _ => immField_eq_toNat_iff w n

/-- `op[1:0]` of a field's set and get commands is the index of the field (30_encoding.md R71, R77). -/
theorem field_off_eq (f : Selector) (v : Nat) :
    f.field.off = 3 * (opcode (setCommand f v) % 4) ∧ f.field.off = 3 * (opcode (getCommand f) % 4) := by
  cases f <;> simp [Selector.field, CfgField.off, setCommand, getCommand, opcode]

/-- Settles O1, row by row. -/
theorem decodeFollowsOpcodeMap : Obligations.DecodeFollowsOpcodeMap := by
  intro w
  refine ⟨fun _ => decode_operandRow_iff rfl rfl, fun _ => decode_operandRow_iff rfl rfl,
    fun _ => decode_operandRow_iff rfl rfl, fun _ => decode_operandRow_iff rfl rfl,
    decode_plainRow_iff rfl rfl, decode_plainRow_iff rfl rfl, decode_plainRow_iff rfl rfl, decode_plainRow_iff rfl rfl,
    decode_plainRow_iff rfl rfl, decode_calRow_iff w, decode_plainRow_iff rfl rfl, decode_plainRow_iff rfl rfl,
    decode_plainRow_iff rfl rfl, decode_plainRow_iff rfl rfl, fun f v h => ?set, fun f h => ?get⟩
  case set =>
    obtain ⟨hop, -⟩ := fields_of_decode h
    rw [← opField_mod_four, hop]
    exact (field_off_eq f v).1
  case get =>
    obtain ⟨hop, -⟩ := fields_of_decode h
    rw [← opField_mod_four, hop]
    exact (field_off_eq f 0).2

/-- Settles O3: each word is the encoding of its command. -/
theorem workedWordsDecode : Obligations.WorkedWordsDecode :=
  ⟨decode_encode (i := .setmode 3) rfl, decode_encode (i := .setsvct 7) rfl, decode_encode (i := .setbvct 0) rfl,
    decode_encode (i := .setavg 3) rfl, decode_encode (i := .srst) rfl, decode_encode (i := .getmode) rfl,
    decode_encode (i := .cal true) rfl, decode_encode (i := .tmoest) rfl, decode_encode (i := .waitc) rfl⟩

/-! Illegal words (30_encoding.md R74). -/

/-- A word that decodes matches one of the rows. -/
theorem matches_row_of_decode {w : Word16} {i : Instr} (h : decode w = .ok i) :
    w &&& 0xFF00 ∈ ([0x1000, 0x1100, 0x1200, 0x1300] : List Word16) ∨ w &&& 0xFFFE = 0x3000 ∨
      w ∈ ([0x1800, 0x2000, 0x2100, 0x2200, 0x2300, 0x4000, 0x4100, 0x4200, 0x4300] : List Word16) := by
  obtain ⟨hop, himm⟩ := fields_of_decode h
  obtain ⟨-, hw⟩ := encode_of_fields hop himm
  cases i with
  | setmode | setsvct | setbvct | setavg =>
    left
    rw [and_FF00, hop]
    simp [opcode]
  | cal n => exact .inr (.inl ((decode_calRow_iff w n).mp h).1)
  | srst | getmode | getsvct | getbvct | getavg | tmoest | isrdy | waitt | waitc =>
    subst hw
    exact .inr (.inr (by decide))

/-- Settles O4: the word has no command, so the step is the report of an illegal word. -/
theorem illegalWordReportsOnly : Obligations.IllegalWordReportsOnly := by
  intro s d rest w hs ⟨hoperand, hcal, hplain⟩
  rw [step_of_inputs_cons hs]
  cases hd : decode (commandWord d) with
  | error e =>
    simp only [runInput, regCmd, if_true, runCommand, hd]
    rfl
  | ok i =>
    rw [commandWord_eq_extractLsb'] at hd
    rcases matches_row_of_decode hd with h | h | h
    · exact absurd h hoperand
    · exact absurd h hcal
    · exact absurd h hplain

/-! The accesses and the status of a command. -/

/-- The trace grows by the events a command may cause, whichever way the command ends (30_encoding.md R87). -/
theorem Ends.adds_commandEvents {i : Instr} {s t : State} (h : Ends i s t) :
    ∃ evs, t.trace = evs ++ s.trace ∧ ∀ e ∈ evs, CommandEvent s.params e := by
  cases h with
  | ignored | calRejected | estimated => exact ⟨[], rfl, by simp⟩
  | set | softReset => exact ⟨[_, _], rfl, by simp [CommandEvent]⟩
  | got => exact ⟨[_], rfl, by simp [CommandEvent]⟩
  | calOffered => exact ⟨[_], rfl, by simp [CommandEvent]⟩
  | waited ready n reads evs hi he =>
    refine ⟨evs, rfl, fun e hmem => ?_⟩
    rcases he e hmem with rfl | ⟨v, rfl⟩
    · trivial
    · exact ⟨rfl, .inr rfl⟩

/-- Settles O44, by every way a command can end. -/
theorem commandsStayOnThreeRegisters : Obligations.CommandsStayOnThreeRegisters :=
  fun _ _ _ h => (exec_ends h).adds_commandEvents

/-- Settles O48: a reset and an illegal word write a code, every command ends with one, no other input writes `STATUS`. -/
theorem stepKeepsStatusLegal : Obligations.StepKeepsStatusLegal :=
  fun _ _ => step_keeps_statusLegal

/-! Pseudo-instructions (30_encoding.md R86). -/

/-- The low half of the data of a command line is the command's word. -/
theorem commandWord_setWidth (w : Word16) : commandWord (w.setWidth 32) = w := by
  rw [commandWord, BitVec.setWidth_setWidth_of_le w (by decide), BitVec.setWidth_eq]

/-- A well-formed command line runs the command. -/
theorem runInput_commandLine {i : Instr} (h : WellFormed i) (s : State) : runInput (commandLine i) s = exec i s := by
  simp only [commandLine, commandInput, runInput, if_true, runCommand, commandWord_setWidth, decode_encode h]

/-- An operand line writes its register. -/
theorem runInput_writeLine (reg : OperandReg) (v : Reg) (s : State) :
    runInput (writeLine reg v) s = .next (hostWrite reg.number v s) := by
  cases reg <;> rfl

/-- A run begins with the next input, where that ends in a next state. -/
theorem run_succ_of_inputs_cons {s t : State} {a : Input} {rest : List Input} (k : Nat) (hs : s.inputs = a :: rest)
    (ha : runInput a (s.withInputs rest) = .next t) : core.run (k + 1) s = core.run k t := by
  have hstep : core.step s = .next t := (step_of_inputs_cons hs).trans ha
  simp only [Host.Core.run, hstep]

/-- A run of one step is the step. -/
theorem run_one (s : State) : core.run 1 s = step s := by
  obtain ⟨t, ht⟩ := step_next s
  have hstep : core.step s = .next t := ht
  have hrun : core.run 1 s = .next t := by simp only [Host.Core.run, hstep]
  exact hrun.trans ht.symm

/-- Settles O9: the operand lines write their registers, then the command line runs the command. -/
theorem pseudoInstructionsExpand : Obligations.PseudoInstructionsExpand := by
  intro s rest uA uOhm t n
  refine ⟨rfl, rfl, ?calib, ?wait⟩
  case calib =>
    rw [run_succ_of_inputs_cons 2 rfl (runInput_writeLine .maxi uA _),
      run_succ_of_inputs_cons 1 rfl (runInput_writeLine .shunt uOhm _), run_one, step_of_inputs_cons rfl,
      runInput_commandLine rfl]
    rfl
  case wait =>
    rw [run_succ_of_inputs_cons 1 rfl (runInput_writeLine .tmo t _), run_one, step_of_inputs_cons rfl,
      runInput_commandLine rfl]
    rfl

/-! The mode tables (30_encoding.md R83). -/

/-- Settles O31: an entry is a bit, and the tables have none at modes 0 and 4. -/
theorem powerDownMeasuresNothing : Obligations.PowerDownMeasuresNothing := by
  refine fun t m => ⟨measures_le t m, ?_⟩
  rintro (rfl | rfl) <;> rfl

end Sys2Proof.Machine
end

section
/-! PROOFS. Scope: the configuration bit-field codec (40_config_codec.md): the laws of insertion and extraction, whole-word
packing, and what the set, get and reset commands do. -/

namespace Sys2Proof.Machine

open Sys2Proof.Safety

/-! Layer: the bits of the codec. -/

/-- Bit `i` of the configuration register belongs to field `f` (30_encoding.md R76). -/
abbrev CfgField.Covers (f : CfgField) (i : Nat) : Prop := f.off ≤ i ∧ i < f.off + f.wid

/-- The value `v` at the position of field `f`, the second operand of the OR in `cfg_insert` (R102). -/
def CfgField.placed (f : CfgField) (v : Nat) : Word16 := BitVec.ofNat 16 v <<< f.off

/-- Insertion clears the field, then joins the placed value (R102). -/
theorem cfgInsert_eq (w : Word16) (f : CfgField) (v : Nat) : cfgInsert w f v = (w &&& ~~~f.msk) ||| f.placed v := rfl

/-- The mode field stands at bit 0. -/
theorem placed_mode (v : Nat) : CfgField.placed .mode v = BitVec.ofNat 16 v := BitVec.shiftLeft_zero _

/-- Every field lies inside the word. -/
theorem CfgField.off_add_wid_le (f : CfgField) : f.off + f.wid ≤ 16 := by
  cases f <;> decide

/-- Of two different fields, one ends no higher than the other begins. -/
theorem CfgField.le_off_or_le_off {f g : CfgField} (hne : f ≠ g) : f.off + f.wid ≤ g.off ∨ g.off + g.wid ≤ f.off := by
  revert hne
  cases f <;> cases g <;> decide

/-- The fields are pairwise disjoint. -/
theorem CfgField.not_covers_of_ne {f g : CfgField} (hne : f ≠ g) {i : Nat} (hf : f.Covers i) : ¬ g.Covers i := by
  have hapart := CfgField.le_off_or_le_off hne
  omega

/-- An in-range value has no bit at or above the width of its field. -/
theorem testBit_of_wid_le {f : CfgField} {v i : Nat} (hv : v < 2 ^ f.wid) (hi : f.wid ≤ i) : v.testBit i = false :=
  Nat.testBit_lt_two_pow (hv.trans_le (Nat.pow_le_pow_right (by decide) hi))

/-- The mask of a field has its bits exactly at the field. -/
theorem getLsbD_msk (f : CfgField) (i : Nat) : f.msk.getLsbD i = decide (f.Covers i) := by
  have hfit := f.off_add_wid_le
  rw [CfgField.msk, BitVec.getLsbD_shiftLeft, BitVec.getLsbD_ofNat, Nat.testBit_two_pow_sub_one, Bool.eq_iff_iff]
  simp only [Bool.and_eq_true, Bool.not_eq_true', decide_eq_true_eq, decide_eq_false_iff_not]
  omega

/-- A placed value has its bits inside its field. -/
theorem getLsbD_placed {f : CfgField} {v : Nat} (hv : v < 2 ^ f.wid) (i : Nat) :
    (f.placed v).getLsbD i = (decide (f.Covers i) && v.testBit (i - f.off)) := by
  have hfit := f.off_add_wid_le
  rw [CfgField.placed, BitVec.getLsbD_shiftLeft, BitVec.getLsbD_ofNat]
  by_cases hwid : f.wid ≤ i - f.off
  · simp [testBit_of_wid_le hv hwid]
  · rw [← Bool.and_assoc]
    congr 1
    rw [Bool.eq_iff_iff]
    simp only [Bool.and_eq_true, Bool.not_eq_true', decide_eq_true_eq, decide_eq_false_iff_not]
    omega

/-- Extraction moves the bits of the field down to bit 0 (R101). -/
theorem getLsbD_cfgExtract (w : Word16) (f : CfgField) (i : Nat) :
    (cfgExtract w f).getLsbD i = (decide (i < f.wid) && w.getLsbD (f.off + i)) := by
  rw [cfgExtract, BitVec.getLsbD_ushiftRight, BitVec.getLsbD_and, getLsbD_msk, Bool.and_comm]
  simp

/-- Insertion gives the bits of the value inside the field, and the bits of the word outside it (R102). -/
theorem getLsbD_cfgInsert (w : Word16) {f : CfgField} {v : Nat} (hv : v < 2 ^ f.wid) (i : Nat) :
    (cfgInsert w f v).getLsbD i = if f.Covers i then v.testBit (i - f.off) else w.getLsbD i := by
  rw [cfgInsert_eq, BitVec.getLsbD_or, BitVec.getLsbD_and, BitVec.getLsbD_not, getLsbD_msk, getLsbD_placed hv]
  split_ifs with hcov
  · simp [hcov]
  · by_cases hi : i < 16
    · simp [hcov, hi]
    · simp [hcov, BitVec.getLsbD_of_ge w i (by omega)]

/-! Layer: the laws of insertion and extraction (R103). -/

section Laws

variable (w : Word16) {f g : CfgField} {v v' : Nat}

/-- Law (a). -/
theorem cfgExtract_cfgInsert_same (hv : v < 2 ^ f.wid) : cfgExtract (cfgInsert w f v) f = BitVec.ofNat 16 v := by
  refine BitVec.eq_of_getLsbD_eq fun i hi => ?_
  rw [getLsbD_cfgExtract, getLsbD_cfgInsert w hv, BitVec.getLsbD_ofNat]
  by_cases hwid : i < f.wid
  · simp [hwid, hi]
  · simp [hwid, testBit_of_wid_le hv (Nat.le_of_not_lt hwid)]

/-- Law (b): the fields are disjoint. -/
theorem cfgExtract_cfgInsert_other (hne : f ≠ g) (hv : v < 2 ^ f.wid) :
    cfgExtract (cfgInsert w f v) g = cfgExtract w g := by
  refine BitVec.eq_of_getLsbD_eq fun i _ => ?_
  rw [getLsbD_cfgExtract, getLsbD_cfgExtract, getLsbD_cfgInsert w hv]
  by_cases hwid : i < g.wid
  · rw [if_neg (CfgField.not_covers_of_ne hne.symm ⟨by omega, by omega⟩)]
  · simp [hwid]

/-- Law (c). -/
theorem cfgInsert_and_not_msk (hv : v < 2 ^ f.wid) : cfgInsert w f v &&& ~~~f.msk = w &&& ~~~f.msk := by
  refine BitVec.eq_of_getLsbD_eq fun i _ => ?_
  rw [BitVec.getLsbD_and, BitVec.getLsbD_and, BitVec.getLsbD_not, getLsbD_msk, getLsbD_cfgInsert w hv]
  by_cases hcov : f.Covers i
  · simp [hcov]
  · rw [if_neg hcov]

/-- Law (d): by law (c) the second insertion sees no bit of the first. -/
theorem cfgInsert_cfgInsert_same (hv : v < 2 ^ f.wid) : cfgInsert (cfgInsert w f v) f v' = cfgInsert w f v' :=
  congrArg (· ||| f.placed v') (cfgInsert_and_not_msk w hv)

/-- An extracted value is in range (R101). -/
theorem toNat_cfgExtract_lt (f : CfgField) : (cfgExtract w f).toNat < 2 ^ f.wid := by
  refine Nat.lt_pow_two_of_testBit _ fun i hi => ?_
  rw [BitVec.testBit_toNat, getLsbD_cfgExtract, decide_eq_false (Nat.not_lt.mpr hi), Bool.false_and]

/-- Law (e). -/
theorem cfgInsert_cfgExtract (f : CfgField) : cfgInsert w f (cfgExtract w f).toNat = w := by
  refine BitVec.eq_of_getLsbD_eq fun i _ => ?_
  rw [getLsbD_cfgInsert w (toNat_cfgExtract_lt w f), BitVec.testBit_toNat, getLsbD_cfgExtract]
  split_ifs with hcov
  · obtain ⟨hlo, hhi⟩ := hcov
    rw [Nat.add_sub_cancel' hlo, decide_eq_true (by omega), Bool.true_and]
  · rfl

/-- Law (f): the value 1 fills the reset field, so clearing it first makes no difference. -/
theorem cfgInsert_rst_one : cfgInsert w .rst 1 = w ||| 0x8000 := by
  change (w &&& ~~~CfgField.rst.msk) ||| CfgField.rst.msk = w ||| CfgField.rst.msk
  refine BitVec.eq_of_getLsbD_eq fun i hi => ?_
  rw [BitVec.getLsbD_or, BitVec.getLsbD_or, BitVec.getLsbD_and, BitVec.getLsbD_not, decide_eq_true hi, Bool.true_and]
  cases CfgField.rst.msk.getLsbD i <;> simp

end Laws

/-- Settles O13 by the six laws of R103. -/
theorem codecLaws : Obligations.CodecLaws :=
  fun w f _ _ _ hv _ =>
    ⟨cfgExtract_cfgInsert_same w hv, fun hne => cfgExtract_cfgInsert_other w hne hv, cfgInsert_and_not_msk w hv,
      cfgInsert_cfgInsert_same w hv, cfgInsert_cfgExtract w f, cfgInsert_rst_one w⟩

/-- Extraction is the bit slice of the field, for all five fields (R101). -/
theorem cfgExtract_eq_slice (w : Word16) (f : CfgField) :
    cfgExtract w f = (w.extractLsb' f.off f.wid).setWidth 16 := by
  refine BitVec.eq_of_getLsbD_eq fun i hi => ?_
  rw [getLsbD_cfgExtract, BitVec.getLsbD_setWidth, BitVec.getLsbD_extractLsb', decide_eq_true hi, Bool.true_and]

/-- Settles O14: the tables of R100, and extraction as the bit slice. -/
theorem extractIsBitSlice : Obligations.ExtractIsBitSlice := by
  refine ⟨⟨rfl, rfl⟩, ⟨rfl, rfl, rfl, rfl, rfl⟩, fun w f => ⟨rfl, ?_⟩⟩
  have hwid : f.wid ≤ 16 := (Nat.le_add_left _ _).trans f.off_add_wid_le
  rw [cfgExtract_eq_slice, BitVec.toNat_setWidth_of_le hwid]

/-! Layer: packing (R104). -/

/-- A placed value lies outside the other fields. -/
theorem placed_and_not_msk {f g : CfgField} {v : Nat} (hne : f ≠ g) (hv : v < 2 ^ f.wid) :
    f.placed v &&& ~~~g.msk = f.placed v := by
  refine BitVec.eq_of_getLsbD_eq fun i hi => ?_
  rw [BitVec.getLsbD_and, BitVec.getLsbD_not, getLsbD_placed hv, getLsbD_msk]
  by_cases hcov : f.Covers i
  · simp [hi, CfgField.not_covers_of_ne hne hcov]
  · simp [hcov]

/-- Insertions at different fields commute. -/
theorem cfgInsert_comm (w : Word16) {f g : CfgField} {v v' : Nat} (hne : f ≠ g) (hv : v < 2 ^ f.wid)
    (hv' : v' < 2 ^ g.wid) : cfgInsert (cfgInsert w f v) g v' = cfgInsert (cfgInsert w g v') f v := by
  refine BitVec.eq_of_getLsbD_eq fun i _ => ?_
  simp only [getLsbD_cfgInsert _ hv, getLsbD_cfgInsert _ hv']
  by_cases hcov : f.Covers i
  · simp only [if_pos hcov, if_neg (CfgField.not_covers_of_ne hne hcov)]
  · simp only [if_neg hcov]

/-- In-range insertions at different fields give the same word in any order. -/
theorem foldl_cfgInsert_perm {l l' : List (CfgField × Nat)} (hp : l.Perm l') (hfields : (l.map Prod.fst).Nodup)
    (hrange : ∀ p ∈ l, p.2 < 2 ^ p.1.wid) (base : Word16) :
    l.foldl (fun w p => cfgInsert w p.1 p.2) base = l'.foldl (fun w p => cfgInsert w p.1 p.2) base := by
  refine hp.foldl_eq' (fun p hpl q hql w => ?_) base
  by_cases hfst : p.1 = q.1
  · rw [List.inj_on_of_nodup_map hfields hpl hql hfst]
  · exact cfgInsert_comm w hfst (hrange p hpl) (hrange q hql)

/-- Each in-range value inserted into its own field can be extracted again: its insertion can come last. -/
theorem cfgExtract_foldl_cfgInsert {l : List (CfgField × Nat)} (hfields : (l.map Prod.fst).Nodup)
    (hrange : ∀ p ∈ l, p.2 < 2 ^ p.1.wid) (base : Word16) {p : CfgField × Nat} (hp : p ∈ l) :
    cfgExtract (l.foldl (fun w p => cfgInsert w p.1 p.2) base) p.1 = BitVec.ofNat 16 p.2 := by
  have hlast : l.Perm (l.erase p ++ [p]) := (List.perm_cons_erase hp).trans (List.perm_append_singleton _ _).symm
  rw [foldl_cfgInsert_perm hlast hfields hrange, List.foldl_append]
  exact cfgExtract_cfgInsert_same _ (hrange p hp)

/-- The five fields with the values to insert, in the order of `cfgPack`. -/
def packList (r a b s m : Nat) : List (CfgField × Nat) := [(.rst, r), (.avg, a), (.bvct, b), (.svct, s), (.mode, m)]

/-- Packing is the five insertions in this order. -/
theorem cfgPack_eq_foldl (base : Word16) (r a b s m : Nat) :
    cfgPack base r a b s m = (packList r a b s m).foldl (fun w p => cfgInsert w p.1 p.2) base := rfl

/-- Each field stands once in the list. -/
theorem packList_fields_nodup (r a b s m : Nat) : ((packList r a b s m).map Prod.fst).Nodup := by
  change [CfgField.rst, .avg, .bvct, .svct, .mode].Nodup
  decide

section Pack

variable {r a b s m : Nat} (hr : r < 2) (ha : a < 8) (hb : b < 8) (hs : s < 8)

include hr ha hb hs in
/-- Packing keeps bits 14:12 of the base: each insertion clears its own field and leaves the values placed before. -/
theorem cfgPack_eq (m : Nat) (base : Word16) :
    cfgPack base r a b s m =
      (base &&& 0x7000) ||| CfgField.placed .rst r ||| CfgField.placed .avg a ||| CfgField.placed .bvct b |||
        CfgField.placed .svct s ||| CfgField.placed .mode m := by
  have hmask : ~~~CfgField.rst.msk &&& (~~~CfgField.avg.msk &&& (~~~CfgField.bvct.msk &&&
      (~~~CfgField.svct.msk &&& ~~~CfgField.mode.msk))) = 0x7000 := by decide
  simp only [cfgPack, cfgInsert_eq, BitVec.and_or_distrib_right, BitVec.and_assoc, hmask, ne_eq, reduceCtorEq,
    not_false_eq_true, placed_and_not_msk (f := .rst) (hv := hr), placed_and_not_msk (f := .avg) (hv := ha),
    placed_and_not_msk (f := .bvct) (hv := hb), placed_and_not_msk (f := .svct) (hv := hs)]

variable (hm : m < 8)
include hr ha hb hs hm

/-- Each value of the list is in the range of its field. -/
theorem packList_inRange : ∀ p ∈ packList r a b s m, p.2 < 2 ^ p.1.wid := by
  simp [packList, CfgField.wid, hr, ha, hb, hs, hm]

/-- Inserting the five values in any order is packing. -/
theorem foldl_cfgInsert_eq_cfgPack {l : List (CfgField × Nat)} (hp : l.Perm (packList r a b s m)) (base : Word16) :
    l.foldl (fun w p => cfgInsert w p.1 p.2) base = cfgPack base r a b s m := by
  rw [cfgPack_eq_foldl,
    foldl_cfgInsert_perm hp.symm (packList_fields_nodup r a b s m) (packList_inRange hr ha hb hs hm)]

/-- The five values come back out of a packed word. -/
theorem cfgUnpack_cfgPack (base : Word16) :
    cfgUnpack (cfgPack base r a b s m) =
      (BitVec.ofNat 16 r, BitVec.ofNat 16 a, BitVec.ofNat 16 b, BitVec.ofNat 16 s, BitVec.ofNat 16 m) := by
  have hback : ∀ p ∈ packList r a b s m, cfgExtract (cfgPack base r a b s m) p.1 = BitVec.ofNat 16 p.2 := by
    rw [cfgPack_eq_foldl]
    exact fun _ => cfgExtract_foldl_cfgInsert (packList_fields_nodup r a b s m) (packList_inRange hr ha hb hs hm) base
  simp only [packList, List.forall_mem_cons] at hback
  obtain ⟨hrst, havg, hbvct, hsvct, hmode, -⟩ := hback
  rw [cfgUnpack, hrst, havg, hbvct, hsvct, hmode]

end Pack

/-- The five extractions of any word are its slices. -/
theorem cfgUnpack_eq (w : Word16) :
    cfgUnpack w =
      ((w.extractLsb' 15 1).setWidth 16, (w.extractLsb' 9 3).setWidth 16, (w.extractLsb' 6 3).setWidth 16,
        (w.extractLsb' 3 3).setWidth 16, (w.extractLsb' 0 3).setWidth 16) := by
  simp only [cfgUnpack, cfgExtract_eq_slice]
  rfl

/-- Settles O15: the word of the formula is `cfgPack`, which any order of the insertions gives. -/
theorem packUnpack : Obligations.PackUnpack := by
  intro base r a b s m hr ha hb hs hm word
  have hword : cfgPack base r a b s m = word :=
    (cfgPack_eq hr ha hb hs m base).trans (congrArg (_ ||| ·) (placed_mode m))
  rw [← hword]
  exact ⟨rfl, fun l hp => foldl_cfgInsert_eq_cfgPack hr ha hb hs hm hp base, cfgUnpack_cfgPack hr ha hb hs hm base,
    cfgUnpack_eq base⟩

/-! Layer: the commands of the codec (R105 to R116). -/

/-- A placed value is the value times the weight of the field's lowest bit. -/
theorem placed_eq_ofNat_mul (f : CfgField) (v : Nat) : f.placed v = BitVec.ofNat 16 (2 ^ f.off * v) := by
  rw [CfgField.placed, BitVec.toNat_eq, BitVec.toNat_shiftLeft, BitVec.toNat_ofNat, BitVec.toNat_ofNat,
    Nat.shiftLeft_eq, Nat.mod_mul_mod, mul_comm]

/-- A `SETx` with a selector above 7 reports `ST_OK` with 0 and does nothing else (R105, log 11). -/
theorem exec_setCommand_of_gt (f : Selector) {v : Nat} (s : State) (h : 7 < v) :
    exec (setCommand f v) s = .next { s with status := 0x0000, value := 0, aux := 0 } := by
  rw [exec_setCommand, setField_ignored f s h]
  rfl

/-- A `SETx` with a selector 0 to 7 clears its field by a mask and joins the selector times the field's weight (R105). -/
theorem exec_setCommand_of_le (f : Selector) {v x : Nat} {mask : Word16} (s : State) (h : v ≤ 7)
    (hmask : ~~~f.field.msk = mask) (hx : 2 ^ f.field.off * v = x) :
    exec (setCommand f v) s =
      .next (rmwOutcome s ((s.readAt 0 &&& mask) ||| BitVec.ofNat 16 x) (s.cache.set f (BitVec.ofNat 3 v))) := by
  rw [exec_setCommand, setField_acts f s h, ← hmask, ← hx, ← placed_eq_ofNat_mul]
  rfl

/-- Settles O16, field by field; the words are the encodings of well-formed commands. -/
theorem setFieldCommands : Obligations.SetFieldCommands := by
  refine fun s v => ⟨fun h f => exec_setCommand_of_gt f s h, fun h => ?_, fun h => ?_⟩
  · exact ⟨exec_setCommand_of_le .mode s h rfl (one_mul v), exec_setCommand_of_le .svct s h rfl rfl,
      exec_setCommand_of_le .bvct s h rfl rfl, exec_setCommand_of_le .avg s h rfl rfl⟩
  · exact ⟨decode_encode ((wellFormed_iff (.setmode v)).mpr h), decode_encode ((wellFormed_iff (.setsvct v)).mpr h),
      decode_encode ((wellFormed_iff (.setbvct v)).mpr h), decode_encode ((wellFormed_iff (.setavg v)).mpr h)⟩

/-- A `GETx` reads its slice, reports it with its meaning, and stores it in its cache field (R110). -/
theorem exec_getCommand_eq (f : Selector) (s : State) :
    exec (getCommand f) s =
      .next (getOutcome s ((s.readAt 0).extractLsb' f.field.off 3) (f.decoded ((s.readAt 0).extractLsb' f.field.off 3))
        (s.cache.set f ((s.readAt 0).extractLsb' f.field.off 3))) := by
  rw [exec_getCommand, getField_eq]

/-- Settles O17, field by field. -/
theorem getFieldCommands : Obligations.GetFieldCommands :=
  fun s => ⟨exec_getCommand_eq .mode s, exec_getCommand_eq .svct s, exec_getCommand_eq .bvct s,
    exec_getCommand_eq .avg s, decode_encode (i := .getmode) rfl, decode_encode (i := .getsvct) rfl,
    decode_encode (i := .getbvct) rfl, decode_encode (i := .getavg) rfl⟩

/-- Settles O18: the word offered is the insertion of 1 at the reset field, by law (f) of R103. -/
theorem softResetCommand : Obligations.SoftResetCommand := by
  refine fun s => ⟨?_, decode_encode (i := .srst) rfl⟩
  rw [← cfgInsert_rst_one, ← softReset_eq]
  rfl

end Sys2Proof.Machine
end

section
/-! PROOFS. Scope: the calibration register computer (41_calibration.md): its checks, its two ways to a scale factor,
the rounded quotient, auto-scaling, and what a successful `CAL` leaves in the registers. -/

namespace Sys2Proof.Machine

open Sys2Proof.Safety

/-! Layer: the checks and the two ways of `CAL` (R120 to R124). -/

/-- Check 1 (R122). -/
theorem precheck_of_voltage_high {M S : Nat} (h : 80000000000 < M * S) : precheck M S = some .shuntVoltageHigh :=
  if_pos h

/-- Check 2, after check 1 (R123). -/
theorem precheck_of_current_low {M S : Nat} (hMS : M * S ≤ 80000000000) (hM : M < 1000) :
    precheck M S = some .maxCurrentLow := by
  rw [precheck, if_neg hMS.not_gt, if_pos hM]

/-- Check 3, after the other two (R124). -/
theorem precheck_of_shunt_low {M S : Nat} (hMS : M * S ≤ 80000000000) (hM : 1000 ≤ M) (hS : S < 1000) :
    precheck M S = some .shuntLow := by
  rw [precheck, if_neg hMS.not_gt, if_neg hM.not_gt, if_pos hS]

/-- The numbers of a `CAL` whose checks pass: `L` is the scale factor before auto-scaling, and `k` the least number of
halvings after which the quotient fits the register (R125 to R131). -/
structure CalComputed (n : Bool) (M S L k : Nat) : Prop where
  checks : precheck M S = none
  scale : scaleFactor n M S = some L
  scaled : autoScale (calibValue L S) L = { lsb := L * 2 ^ k, calib := calibValue L S / 2 ^ k, shifts := k }
  fits : calibValue L S / 2 ^ k ≤ 65535
  least : ∀ j < k, 65535 < calibValue L S / 2 ^ j

/-- `CAL` fails a check and reports it, or offers what it computed to the device. -/
theorem exec_cal_cases (n : Bool) (s : State) :
    (∃ e, precheck s.maxi.toNat s.shunt.toNat = some e ∧ exec (.cal n) s = .next (raise e s)) ∨
    ∃ L k, CalComputed n s.maxi.toNat s.shunt.toNat L k ∧
      exec (.cal n) s = .next (calOutcome s (L * 2 ^ k) (calibValue L s.shunt.toNat / 2 ^ k) k) := by
  rcases calibrate_cases n s with ⟨e, he, hc⟩ | ⟨hp, L, hL, hc⟩
  · exact .inl ⟨e, he, congrArg Host.Outcome.next hc⟩
  · obtain ⟨k, hscaled, hfits, hleast⟩ := autoScale_spec (calibValue L s.shunt.toNat) L
    rw [calPersist_eq, hscaled] at hc
    exact .inr ⟨L, k, ⟨hp, hL, hscaled, hfits, hleast⟩, congrArg Host.Outcome.next hc⟩

/-- A failed check is all that happens. -/
theorem exec_cal_of_rejected (n : Bool) {s : State} {e : Status}
    (he : precheck s.maxi.toNat s.shunt.toNat = some e) : exec (.cal n) s = .next (raise e s) := by
  rcases exec_cal_cases n s with ⟨e', he', hexec⟩ | ⟨L, k, hcomp, -⟩
  · obtain rfl : e = e' := Option.some_inj.mp (he.symm.trans he')
    exact hexec
  · exact absurd (he.symm.trans hcomp.checks) (by simp)

/-- Passed checks lead to the write. -/
theorem exec_cal_of_checksPass (n : Bool) {s : State} (h : ChecksPass s) :
    ∃ L k, CalComputed n s.maxi.toNat s.shunt.toNat L k ∧
      exec (.cal n) s = .next (calOutcome s (L * 2 ^ k) (calibValue L s.shunt.toNat / 2 ^ k) k) := by
  rcases exec_cal_cases n s with ⟨e, he, -⟩ | hoffered
  · exact absurd (he.symm.trans ((precheck_none _ _).mpr h)) (by simp)
  · exact hoffered

/-- Settles O19, check by check. -/
theorem calPreconditionFailures : Obligations.CalPreconditionFailures :=
  fun n _ =>
    ⟨fun hMS => exec_cal_of_rejected n (precheck_of_voltage_high hMS),
      fun hMS hM => exec_cal_of_rejected n (precheck_of_current_low hMS hM),
      fun hMS hM hS => exec_cal_of_rejected n (precheck_of_shunt_low hMS hM hS)⟩

/-- Settles O24: the one ending of `CAL` that is no bare `raise`. -/
theorem normalizationFailureEffect : Obligations.NormalizationFailureEffect :=
  fun _ => rfl

/-! Layer: the 1-2-5 sequence (R126 to R129). -/

/-- `m` is the least member of `l` that is not below `u`. -/
def IsLeastAbove (l : List Nat) (u m : Nat) : Prop := m ∈ l ∧ u ≤ m ∧ ∀ m' ∈ l, u ≤ m' → m ≤ m'

/-- In an increasing list the first member that is not below `u` is the least one. -/
theorem find?_eq_some_iff_isLeastAbove {l : List Nat} (hl : l.Pairwise (· < ·)) (u m : Nat) :
    l.find? (fun a => decide (u ≤ a)) = some m ↔ IsLeastAbove l u m := by
  induction l with
  | nil => simp [IsLeastAbove]
  | cons a l ih =>
    obtain ⟨ha, hl⟩ := List.pairwise_cons.mp hl
    by_cases hua : u ≤ a
    · rw [List.find?_cons_of_pos (by simpa using hua), Option.some_inj]
      constructor
      · rintro rfl
        have hleast : ∀ m' ∈ a :: l, u ≤ m' → a ≤ m' :=
          List.forall_mem_cons.mpr ⟨fun _ => le_rfl, fun m' hm' _ => (ha m' hm').le⟩
        exact ⟨List.mem_cons_self, hua, hleast⟩
      · rintro ⟨hm, -, hleast⟩
        rcases List.mem_cons.mp hm with rfl | hm
        · rfl
        · exact absurd (hleast a List.mem_cons_self hua) (ha m hm).not_ge
    · rw [List.find?_cons_of_neg (by simpa using hua), ih hl]
      constructor
      · rintro ⟨hm, hum, hleast⟩
        exact ⟨List.mem_cons_of_mem a hm, hum, List.forall_mem_cons.mpr ⟨fun hua' => absurd hua' hua, hleast⟩⟩
      · rintro ⟨hm, hum, hleast⟩
        have hma : m ≠ a := fun hma => hua (hma ▸ hum)
        exact ⟨(List.mem_cons.mp hm).resolve_left hma, hum, (List.forall_mem_cons.mp hleast).2⟩

/-- `snap125` is the least member that is not below its argument (R128). -/
theorem snap125_eq_some_iff (u m : Nat) : snap125 u = some m ↔ IsLeastAbove sequence125 u m :=
  find?_eq_some_iff_isLeastAbove (by decide) u m

/-- The sequence is exhausted above its greatest member (R129). -/
theorem snap125_eq_none_iff (u : Nat) : snap125 u = none ↔ 5000 < u := by
  have hmax : ∀ m ∈ sequence125, m ≤ 5000 := by decide
  rw [snap125, List.find?_eq_none]
  simp only [decide_eq_true_eq, not_le]
  exact ⟨fun h => h 5000 (by decide), fun h m hm => (hmax m hm).trans_lt h⟩

/-- Settles O22, by the order of the sequence. -/
theorem snapIsLeastMember : Obligations.SnapIsLeastMember :=
  fun u => ⟨snap125_eq_some_iff u, snap125_eq_none_iff u⟩

/-- Snapping gains at most the greatest ratio of two neighbours, 5 to 2 (R141). -/
theorem IsLeastAbove.two_mul_le {u m : Nat} (h : IsLeastAbove sequence125 u m) (hu : 1 ≤ u) : 2 * m ≤ 5 * u := by
  obtain ⟨hm, -, hleast⟩ := h
  have hneighbour : ∀ m ∈ sequence125, m = 1 ∨ ∃ p ∈ sequence125, p < m ∧ 2 * m ≤ 5 * p := by decide
  rcases hneighbour m hm with rfl | ⟨p, hp, hlt, hratio⟩
  · omega
  · have hpu : p < u := Nat.lt_of_not_le fun hup => (hleast p hp hup).not_gt hlt
    omega

/-- The machine's `u` is the one of the rule, whose `x` is rational (R126, R127; log 16). -/
theorem ceilingMicroamps_eq_floor (M S : Nat) :
    ceilingMicroamps M S = ⌊max ((M : ℚ) / 32768) (78125 / (S : ℚ))⌋₊ + 1 := by
  have hM : ⌊(M : ℚ) / 32768⌋₊ = M / 32768 := mod_cast Nat.floor_div_eq_div (K := ℚ) M 32768
  have hS : ⌊78125 / (S : ℚ)⌋₊ = 78125 / S := mod_cast Nat.floor_div_eq_div (K := ℚ) 78125 S
  rw [Nat.floor_mono.map_max, hM, hS, ceilingMicroamps]

/-- Settles O23: `u` is far below the end of the sequence, and the code of a failed check is another one. -/
theorem normalizationNeverFails : Obligations.NormalizationNeverFails := by
  refine ⟨fun s hpass => ?_, fun n s t h => ?_⟩
  · obtain ⟨hu, hsnap⟩ := normalization_defined ((precheck_none _ _).mpr hpass)
    rw [← ceilingMicroamps_eq_floor]
    exact ⟨hu, hsnap, hu, hsnap⟩
  · rcases exec_cal_cases n s with ⟨e, he, hexec⟩ | ⟨L, k, -, hexec⟩
    · cases hexec.symm.trans h
      rw [raise_status]
      rcases precheck_some he with rfl | rfl | rfl <;> decide
    · cases hexec.symm.trans h
      cases hw : s.nextWrite <;> simp [calOutcome, hw]

/-! Layer: the rounded quotient (R130). -/

/-- A lower bound on the quotient, without the division. -/
theorem le_calibValue_iff {L S : Nat} (hpos : 0 < L * S) (c : Nat) :
    c ≤ calibValue L S ↔ c * (2 * (L * S)) ≤ 2 * 167772160000000 + L * S := by
  rw [calibValue, mul_assoc, Nat.le_div_iff_mul_le (by omega)]

/-- The quotient of R130 and R140 before rounding. -/
def exactQuotient (L S : Nat) : ℚ := 167772160000000 / ((L : ℚ) * (S : ℚ))

/-- The quotient is rounded half up. -/
theorem calibValue_eq_floor {L S : Nat} (hpos : 0 < L * S) : calibValue L S = ⌊exactQuotient L S + 1 / 2⌋₊ := by
  have hLS : (L : ℚ) * (S : ℚ) ≠ 0 := mod_cast hpos.ne'
  have hfrac : exactQuotient L S + 1 / 2 =
      ((2 * 167772160000000 + L * S : ℕ) : ℚ) / ((2 * L * S : ℕ) : ℚ) := by
    push_cast
    rw [exactQuotient, div_add_div _ _ hLS two_ne_zero]
    congr 1 <;> ring
  rw [hfrac, Nat.floor_div_eq_div, calibValue]

/-- Rounding half up moves the quotient by a half at most, and never down by a half. -/
theorem calibValue_near {L S : Nat} (hpos : 0 < L * S) :
    exactQuotient L S - 1 / 2 < calibValue L S ∧ (calibValue L S : ℚ) ≤ exactQuotient L S + 1 / 2 := by
  have hnonneg : 0 ≤ exactQuotient L S + 1 / 2 := by unfold exactQuotient; positivity
  have hlt := Nat.lt_floor_add_one (exactQuotient L S + 1 / 2)
  rw [calibValue_eq_floor hpos]
  exact ⟨by linarith, Nat.floor_le hnonneg⟩

/-- Doubling the scale factor `k` times halves the quotient as often. -/
theorem exactQuotient_mul_pow (L S k : Nat) : exactQuotient (L * 2 ^ k) S = exactQuotient L S / 2 ^ k := by
  unfold exactQuotient
  push_cast
  rw [div_div, mul_right_comm]

/-- Dropping bits rounds down, by less than one count (R131). -/
theorem div_two_pow_near (c k : Nat) :
    (c : ℚ) / 2 ^ k - 1 < ((c / 2 ^ k : ℕ) : ℚ) ∧ ((c / 2 ^ k : ℕ) : ℚ) ≤ (c : ℚ) / 2 ^ k := by
  have hfloor : ⌊(c : ℚ) / 2 ^ k⌋₊ = c / 2 ^ k := mod_cast Nat.floor_div_eq_div (K := ℚ) c (2 ^ k)
  rw [← hfloor]
  exact ⟨Nat.sub_one_lt_floor _, Nat.floor_le (by positivity)⟩

/-- The register value against the exact quotient for the final scale factor: each halving divides the error of rounding
by 2, and the bits dropped are less than one count (R140). -/
theorem shifted_calibValue_near {L S : Nat} (hpos : 0 < L * S) (k : Nat) :
    -(1 + 1 / 2 ^ (k + 1)) < ((calibValue L S / 2 ^ k : ℕ) : ℚ) - exactQuotient (L * 2 ^ k) S ∧
      ((calibValue L S / 2 ^ k : ℕ) : ℚ) - exactQuotient (L * 2 ^ k) S ≤ 1 / 2 ^ (k + 1) := by
  obtain ⟨hlow, hhigh⟩ := calibValue_near hpos
  obtain ⟨hdrop, hdown⟩ := div_two_pow_near (calibValue L S) k
  have hhalf : (1 : ℚ) / 2 ^ (k + 1) = 1 / 2 / 2 ^ k := by rw [pow_succ', div_div]
  have hlow' : (exactQuotient L S - 1 / 2) / 2 ^ k < calibValue L S / 2 ^ k := by gcongr
  have hhigh' : (calibValue L S : ℚ) / 2 ^ k ≤ (exactQuotient L S + 1 / 2) / 2 ^ k := by gcongr
  rw [sub_div] at hlow'
  rw [add_div] at hhigh'
  rw [exactQuotient_mul_pow, hhalf]
  constructor <;> linarith

/-- With a normalised scale factor the quotient is `5120000000 / (m * S)` (R137). -/
theorem calibValue_normalized {m S : Nat} (hpos : 0 < m * S) :
    calibValue (32768 * m) S = ⌊(5120000000 : ℚ) / ((m : ℚ) * (S : ℚ)) + 1 / 2⌋₊ := by
  have hmS : (m : ℚ) * (S : ℚ) ≠ 0 := mod_cast hpos.ne'
  have hquot : exactQuotient (32768 * m) S = 5120000000 / ((m : ℚ) * (S : ℚ)) := by
    unfold exactQuotient
    push_cast
    rw [mul_assoc]
    field_simp
    norm_num
  rw [calibValue_eq_floor (by rw [mul_assoc]; omega), hquot]

/-! Layer: the numbers of a `CAL` whose checks pass. -/

/-- The snapped scale factor is above the request, and keeps the quotient within the register (R126, R137). -/
theorem IsLeastAbove.ceiling_bounds {M S m : Nat} (h : IsLeastAbove sequence125 (ceilingMicroamps M S) m)
    (hS : 1000 ≤ S) : M < 32768 * m ∧ 78126 ≤ m * S := by
  obtain ⟨-, hum, -⟩ := h
  unfold ceilingMicroamps at hum
  have hfloor : 78125 / S < m := by omega
  rw [Nat.div_lt_iff_lt_mul (by omega)] at hfloor
  omega

/-- The product with the snapped value stays below `2.06 * 10^8` (R141): `u * S` is at most `M * S / 32768 + S` or
`78125 + S`, and `S` at most 80000000. -/
theorem IsLeastAbove.product_le {M S m : Nat} (h : IsLeastAbove sequence125 (ceilingMicroamps M S) m)
    (hp : precheck M S = none) : m * S ≤ 206103515 := by
  have hSle := (operand_le hp).2
  obtain ⟨hMS, -, -⟩ := (precheck_none M S).mp hp
  have hratio : 2 * m ≤ 5 * ceilingMicroamps M S := h.two_mul_le (Nat.succ_pos _)
  have hu : ceilingMicroamps M S * S ≤ 82441406 := by
    have hcurrent : M / 32768 * S ≤ 2441406 := by
      have := Nat.mul_le_mul_right S (Nat.div_mul_le_self M 32768)
      rw [mul_right_comm] at this
      omega
    have hshunt : 78125 / S * S ≤ 78125 := Nat.div_mul_le_self _ _
    rcases max_choice (M / 32768) (78125 / S) with hx | hx <;>
      (rw [ceilingMicroamps, hx, Nat.add_mul, one_mul]; omega)
  have := Nat.mul_le_mul_right S hratio
  rw [mul_assoc, mul_assoc] at this
  omega

namespace CalComputed

variable {n : Bool} {M S L k : Nat}

/-- The operands are inside the limits (R122 to R124). -/
theorem ranges (h : CalComputed n M S L k) : M * S ≤ 80000000000 ∧ 1000 ≤ M ∧ 1000 ≤ S :=
  (precheck_none M S).mp h.checks

/-- Without normalisation the scale factor is the requested current (R125). -/
theorem scale_plain (h : CalComputed false M S L k) : M = L :=
  Option.some_inj.mp h.scale

/-- With normalisation it is the snapped value (R128). -/
theorem scale_normalized (h : CalComputed true M S L k) :
    ∃ m, IsLeastAbove sequence125 (ceilingMicroamps M S) m ∧ L = 32768 * m := by
  obtain ⟨-, m, hm⟩ := normalization_defined h.checks
  have hL : some (32768 * m) = some L := by simpa only [scaleFactor, hm] using h.scale
  exact ⟨m, (snap125_eq_some_iff _ m).mp hm, (Option.some_inj.mp hL).symm⟩

/-- The scale factor is not below the requested current. -/
theorem le_scale (h : CalComputed n M S L k) : M ≤ L := by
  obtain ⟨-, -, hS⟩ := h.ranges
  cases n with
  | false => exact h.scale_plain.le
  | true =>
    obtain ⟨m, hm, rfl⟩ := h.scale_normalized
    exact (hm.ceiling_bounds hS).1.le

/-- The divisor of the quotient is at least that of the least operands (R135). -/
theorem le_divisor (h : CalComputed n M S L k) : 1000000 ≤ L * S := by
  obtain ⟨-, hM, hS⟩ := h.ranges
  exact Nat.mul_le_mul (hM.trans h.le_scale) hS

/-- The quotient divides by a positive number. -/
theorem divisor_pos (h : CalComputed n M S L k) : 0 < L * S :=
  Nat.lt_of_lt_of_le (by decide) h.le_divisor

/-- The final scale factor is positive and below `2^28` (R139). -/
theorem lsb_bounds (h : CalComputed n M S L k) : 0 < L * 2 ^ k ∧ L * 2 ^ k < 2 ^ 28 := by
  obtain ⟨-, -, hS⟩ := h.ranges
  obtain ⟨hpos, hle⟩ := scaleFactor_bounds h.checks h.scale
  obtain ⟨hlsb, hlsb', -⟩ := autoScale_bounds hpos hle hS
  rw [h.scaled] at hlsb hlsb'
  exact ⟨hlsb, hlsb'⟩

/-- The greatest quotient, at the least operands (R138). -/
theorem quotient_le (h : CalComputed n M S L k) : calibValue L S ≤ 167772160 := by
  have hLS := h.le_divisor
  refine Nat.le_of_lt_succ (Nat.lt_of_not_le fun hge => ?_)
  rw [le_calibValue_iff h.divisor_pos] at hge
  omega

/-- Twelve halvings make the greatest quotient fit (R138). -/
theorem shifts_le (h : CalComputed n M S L k) : k ≤ 12 := by
  by_contra hk
  have hbig := h.least 12 (by omega)
  have hle := h.quotient_le
  omega

/-- The value before the last halving did not fit, so the final one has its top bit set (R138). -/
theorem le_calib_of_shifted (h : CalComputed n M S L k) (hk : 1 ≤ k) : 32768 ≤ calibValue L S / 2 ^ k := by
  obtain ⟨j, rfl⟩ := Nat.exists_eq_add_of_le' hk
  have hbig := h.least j j.lt_succ_self
  rw [pow_succ, ← Nat.div_div_eq_div_mul]
  omega

/-- The least quotient without normalisation, at the greatest product (R138). -/
theorem le_quotient_plain (h : CalComputed false M S L k) : 2097 ≤ calibValue L S := by
  obtain rfl := h.scale_plain
  obtain ⟨hMS, -, -⟩ := h.ranges
  rw [le_calibValue_iff h.divisor_pos]
  omega

/-- At the least operands the quotient is the greatest, and after eleven halvings it is still above 65535 (R138). -/
theorem eq_of_least_operands (h : CalComputed false M S L k) (hM : M = 1000) (hS : S = 1000) :
    calibValue L S = 167772160 ∧ k = 12 := by
  obtain rfl := h.scale_plain
  subst hM hS
  have hquot : calibValue 1000 1000 = 167772160 := by decide
  refine ⟨hquot, h.shifts_le.antisymm (Nat.le_of_not_lt fun hk => ?_)⟩
  have hfits := h.fits
  have hpow : 2 ^ k ≤ 2 ^ 11 := Nat.pow_le_pow_right (by decide) (by omega)
  have heleven := Nat.div_le_div_left (a := 167772160) hpow (by positivity)
  rw [hquot] at hfits
  omega

/-- A normalised quotient fits at once (R137). -/
theorem shifts_eq_zero (h : CalComputed true M S L k) : k = 0 := by
  by_contra hk
  have hbig : 65535 < calibValue L S / 2 ^ 0 := h.least 0 (by omega)
  obtain ⟨-, -, hS⟩ := h.ranges
  obtain ⟨m, hm, rfl⟩ := h.scale_normalized
  have hmS := (hm.ceiling_bounds hS).2
  rw [pow_zero, Nat.div_one, ← Nat.succ_le_iff, le_calibValue_iff h.divisor_pos, mul_assoc] at hbig
  omega

/-- The least quotient with normalisation (R141). -/
theorem le_quotient_normalized (h : CalComputed true M S L k) : 25 ≤ calibValue L S := by
  obtain ⟨m, hm, rfl⟩ := h.scale_normalized
  have hmS := hm.product_le h.checks
  rw [le_calibValue_iff h.divisor_pos, mul_assoc]
  omega

/-- With auto-scaling the last quotient that did not fit bounds the final scale factor (R139). -/
theorem lsb_lt_of_shifted (h : CalComputed n M S L k) (hk : 1 ≤ k) : L * 2 ^ k < 5120040 := by
  obtain ⟨j, rfl⟩ := Nat.exists_eq_add_of_le' hk
  have hbig : 65536 ≤ calibValue L S / 2 ^ j := h.least j j.lt_succ_self
  rw [Nat.le_div_iff_mul_le (by positivity), le_calibValue_iff h.divisor_pos] at hbig
  obtain ⟨-, -, hS⟩ := h.ranges
  have hfinal : 65536 * (L * 2 ^ (j + 1) * S) ≤ 2 * 167772160000000 + L * S := by
    calc 65536 * (L * 2 ^ (j + 1) * S) = 65536 * 2 ^ j * (2 * (L * S)) := by ring
      _ ≤ 2 * 167772160000000 + L * S := hbig
  have hfirst : 2 * (L * S) ≤ L * 2 ^ (j + 1) * S := by
    calc 2 * (L * S) ≤ 2 ^ (j + 1) * (L * S) := Nat.mul_le_mul_right _ (Nat.le_self_pow (Nat.succ_ne_zero j) 2)
      _ = L * 2 ^ (j + 1) * S := by ring
  have hshunt : L * 2 ^ (j + 1) * 1000 ≤ L * 2 ^ (j + 1) * S := Nat.mul_le_mul_left _ hS
  omega

end CalComputed

/-! Layer: the two outcomes of the write. -/

/-- The state `t` a successful `CAL #n` leaves from `s`, in numbers: no register loses a bit (R133, R134, R139). -/
structure CalSucceeded (n : Bool) (s t : State) (L k : Nat) : Prop where
  computed : CalComputed n s.maxi.toNat s.shunt.toNat L k
  lsb : t.currentLsb.toNat = L * 2 ^ k
  maxCurrent : t.maxCurrentC = t.currentLsb
  shunt : t.shuntC = s.shunt
  calib : t.cal.toNat = calibValue L s.shunt.toNat / 2 ^ k
  value : t.value.toNat = calibValue L s.shunt.toNat / 2 ^ k
  shifts : t.aux.toNat = k
  written : t.trace = .memWrite s.params.devAddr 0x05 t.cal .ok :: s.trace

/-- A `CAL` that reports `ST_OK` has passed its checks, and the device has accepted the word. -/
theorem exec_cal_succeeded {n : Bool} {s t : State} (h : exec (.cal n) s = .next t) (hok : t.status = 0x0000) :
    ∃ L k, CalSucceeded n s t L k := by
  rcases exec_cal_cases n s with ⟨e, he, hexec⟩ | ⟨L, k, hcomp, hexec⟩
  · cases hexec.symm.trans h
    rcases precheck_some he with rfl | rfl | rfl <;> exact absurd hok (by rw [raise_status]; decide)
  · cases hexec.symm.trans h
    cases hw : s.nextWrite with
    | fail => simp [calOutcome, hw] at hok
    | ok =>
      have hfits := hcomp.fits
      have hlsb : (BitVec.ofNat 32 (L * 2 ^ k)).toNat = L * 2 ^ k :=
        Nat.mod_eq_of_lt (hcomp.lsb_bounds.2.trans (by decide))
      have hshifts : (BitVec.ofNat 32 k).toNat = k := Nat.mod_eq_of_lt (hcomp.shifts_le.trans_lt (by decide))
      have hcalib := Nat.mod_eq_of_lt (b := 2 ^ 16) (hfits.trans_lt (by decide))
      have hvalue := Nat.mod_eq_of_lt (b := 2 ^ 32) (hfits.trans_lt (by decide))
      refine ⟨L, k, hcomp, ?_, ?_, ?_, ?_, hvalue, hshifts, ?_⟩ <;>
        simp only [calOutcome, hw, if_true, hlsb, BitVec.toNat_ofNat, hcalib]

/-! The obligations on the results of `CAL`. -/

/-- Settles O20, by the bounds of R138 on the quotient and on the number of halvings. -/
theorem calPlainResult : Obligations.CalPlainResult := by
  intro s hpass M S c0
  obtain ⟨L, k, hcomp, hexec⟩ := exec_cal_of_checksPass false hpass
  obtain rfl : M = L := hcomp.scale_plain
  refine ⟨hcomp.le_quotient_plain, hcomp.quotient_le, k, hcomp.shifts_le, hcomp.least, hcomp.fits,
    hcomp.le_calib_of_shifted, fun hM hS => ?_, hexec⟩
  obtain ⟨hquot, hk⟩ : c0 = 167772160 ∧ k = 12 := hcomp.eq_of_least_operands hM hS
  exact ⟨hquot, hk, by rw [hquot, hk]; decide⟩

/-- Settles O21, by the least member that `snap125` gives and R137. -/
theorem calNormalizedResult : Obligations.CalNormalizedResult := by
  intro s hpass M S u
  obtain ⟨L, k, hcomp, hexec⟩ := exec_cal_of_checksPass true hpass
  obtain rfl : k = 0 := hcomp.shifts_eq_zero
  obtain ⟨m, hm, rfl⟩ := hcomp.scale_normalized
  obtain ⟨-, -, hS⟩ := hpass
  have hmS : 78126 ≤ m * S := (hm.ceiling_bounds hS).2
  have hquot := calibValue_normalized (Nat.lt_of_lt_of_le (by decide) hmS)
  have hfits := hcomp.fits
  rw [pow_zero, Nat.div_one, hquot] at hfits
  rw [pow_zero, mul_one, Nat.div_one, hquot] at hexec
  rw [ceilingMicroamps_eq_floor] at hm
  obtain ⟨hmem, hum, hleast⟩ := hm
  exact ⟨m, hmem, hum, hleast, hmS, hfits, hexec⟩

/-- Settles O25, by the bounds of R139 in the three cases. -/
theorem calScaleBounds : Obligations.CalScaleBounds := by
  intro n s t h hok
  obtain ⟨L, k, hsucc⟩ := exec_cal_succeeded h hok
  have hcomp := hsucc.computed
  rw [hsucc.shifts, hsucc.lsb]
  refine ⟨hcomp.lsb_bounds.1, hcomp.lsb_bounds.2, ?normalized, ?plain, fun _ => hcomp.lsb_lt_of_shifted⟩
  case normalized =>
    rintro rfl
    rw [hcomp.shifts_eq_zero, pow_zero, mul_one]
    exact (scaleFactor_bounds hcomp.checks hcomp.scale).2
  case plain =>
    rintro rfl rfl
    rw [pow_zero, mul_one, ← hcomp.scale_plain]
    refine ⟨BitVec.eq_of_toNat_eq ?_, (operand_le hcomp.checks).1⟩
    rw [hsucc.lsb, pow_zero, mul_one, hcomp.scale_plain]

/-- Settles O26, by the numbers of a successful `CAL`. -/
theorem fullScaleCoversRequest : Obligations.FullScaleCoversRequest := by
  intro n s t h hok
  obtain ⟨L, k, hsucc⟩ := exec_cal_succeeded h hok
  have hcomp := hsucc.computed
  rw [hsucc.maxCurrent, hsucc.lsb, hsucc.shifts]
  refine ⟨rfl, hsucc.shunt, hsucc.value.trans hsucc.calib.symm, hsucc.written, ?plain, ?normalized⟩
  case plain =>
    rintro rfl
    rw [hcomp.scale_plain]
  case normalized =>
    rintro rfl
    obtain ⟨-, -, hS⟩ := hcomp.ranges
    obtain ⟨m, hm, rfl⟩ := hcomp.scale_normalized
    have habove := (hm.ceiling_bounds hS).1
    rw [ceilingMicroamps_eq_floor] at hm
    obtain ⟨hmem, hum, hleast⟩ := hm
    rw [hcomp.shifts_eq_zero, pow_zero, mul_one]
    exact ⟨habove, m, hmem, hum, hleast, rfl⟩

/-- Settles O27, by the error of rounding and of dropping bits. -/
theorem roundTripLaw : Obligations.RoundTripLaw := by
  intro n s t h hok q c k
  obtain ⟨L, k', hsucc⟩ := exec_cal_succeeded h hok
  obtain rfl : k = k' := hsucc.shifts
  have hpos := hsucc.computed.divisor_pos
  have hq : q = exactQuotient (L * 2 ^ k) s.shunt.toNat := by
    rw [exactQuotient, ← hsucc.lsb, ← hsucc.shunt]
  have hc : c = ((calibValue L s.shunt.toNat / 2 ^ k : ℕ) : ℚ) := congrArg Nat.cast hsucc.calib
  rw [hq, hc]
  refine ⟨fun hk => ?_, fun _ => shifted_calibValue_near hpos k⟩
  obtain ⟨hlow, hhigh⟩ := calibValue_near hpos
  rw [hk, pow_zero, mul_one, Nat.div_one]
  constructor <;> linarith

/-- Settles O28: the word offered is the computed one, bounded below in both cases; a failed check leaves the trace. -/
theorem calibFloor : Obligations.CalibFloor := by
  intro n s t h
  refine ⟨fun hpass => ?passed, fun hfail => ?failed⟩
  case passed =>
    obtain ⟨L, k, hcomp, hexec⟩ := exec_cal_of_checksPass n hpass
    cases hexec.symm.trans h
    have hword : calibValue L s.shunt.toNat / 2 ^ k < 2 ^ 16 := Nat.lt_of_le_of_lt hcomp.fits (by decide)
    refine ⟨BitVec.ofNat 16 (calibValue L s.shunt.toNat / 2 ^ k), rfl, ?value, ?plain, ?normalized⟩
    case value => exact (BitVec.setWidth_ofNat_of_le_of_lt (by decide) hword).symm
    all_goals
      rintro rfl
      rw [BitVec.toNat_ofNat, Nat.mod_eq_of_lt hword]
    case plain =>
      rcases Nat.eq_zero_or_pos k with rfl | hk
      · simpa using hcomp.le_quotient_plain
      · exact le_trans (by decide) (hcomp.le_calib_of_shifted hk)
    case normalized =>
      rw [hcomp.shifts_eq_zero]
      simpa using hcomp.le_quotient_normalized
  case failed =>
    rcases exec_cal_cases n s with ⟨e, -, hexec⟩ | ⟨L, k, hcomp, -⟩
    · cases hexec.symm.trans h
      rfl
    · exact absurd hcomp.ranges hfail

end Sys2Proof.Machine
end

section
/-! PROOFS. Scope: the conversion timeout and the waits (42_timeout_wait.md): the estimator's formula and its range,
what `TMOEST`, `ISRDY`, `WAITT` and `WAITC` do, and the bounds of the waits. -/

namespace Sys2Proof.Machine

open Sys2Proof.Safety

/-! Layer: the conversion time and the timeout (R151, R152). -/

/-- The conversion time is the bus time and the shunt time, each counted when its channel is measured (R151). -/
theorem convUs_eq_add (p : Params) (c : CfgCache) :
    convUs p c =
      p.measBus.measures c.mode * avgSamples c.avg * ctUs c.bvct +
        p.measShunt.measures c.mode * avgSamples c.avg * ctUs c.svct := by
  rw [convUs]
  ring

/-- The greatest conversion time: 1024 samples of both channels at 8244 microseconds each. -/
theorem convUs_le (p : Params) (c : CfgCache) : convUs p c ≤ 16883712 :=
  calc convUs p c
    _ ≤ 1024 * (1 * 8244 + 1 * 8244) :=
      Nat.mul_le_mul (avgSamples_le _) (Nat.add_le_add (Nat.mul_le_mul (measures_le _ _) (ctUs_le _))
        (Nat.mul_le_mul (measures_le _ _) (ctUs_le _)))
    _ = 16883712 := rfl

/-- A mode that measures neither channel takes no time. -/
theorem convUs_eq_zero_of_powerDown {p : Params} {c : CfgCache} (h : c.mode = 0 ∨ c.mode = 4) : convUs p c = 0 := by
  obtain ⟨-, hzero⟩ := powerDownMeasuresNothing p.measBus c.mode
  obtain ⟨-, hzero'⟩ := powerDownMeasuresNothing p.measShunt c.mode
  rw [convUs_eq_add, hzero h, hzero' h]
  simp

/-- The timeout adds 5 % and converts to milliseconds, rounding up, then adds 2 (R152). -/
theorem timeoutOf_eq_ceil (t : Nat) : timeoutOf t = ⌈(21 : ℚ) * (t : ℚ) / 20000⌉₊ + 2 := by
  have hceil : (21 * t + 19999) / 20000 = ⌈(21 : ℚ) * (t : ℚ) / 20000⌉₊ := by
    refine eq_of_forall_ge_iff fun c => ?_
    rw [Nat.ceil_le, div_le_iff₀ (by norm_num)]
    norm_cast
    omega
  rw [timeoutOf, hceil]

/-- The greatest timeout. -/
theorem tmoEst_le (p : Params) (c : CfgCache) : tmoEst p c ≤ 17730 := by
  have hconv := convUs_le p c
  rw [tmoEst, timeoutOf]
  omega

/-- No conversion time of one channel, and no sum of two, is a multiple of 625, the odd part of 20000. -/
theorem ctUs_sum_mod_ne_zero : ∀ b s : Sel,
    ctUs b % 625 ≠ 0 ∧ ctUs s % 625 ≠ 0 ∧ (ctUs b + ctUs s) % 625 ≠ 0 := by
  decide

/-- The time of one sample is no multiple of 625 when anything is measured. -/
theorem sampleTime_mod_ne_zero {x y : Nat} (hx : x ≤ 1) (hy : y ≤ 1) (hxy : ¬ (x = 0 ∧ y = 0)) (b s : Sel) :
    (x * ctUs b + y * ctUs s) % 625 ≠ 0 := by
  obtain ⟨hb, hs, hsum⟩ := ctUs_sum_mod_ne_zero b s
  interval_cases x <;> interval_cases y
  · exact absurd ⟨rfl, rfl⟩ hxy
  · simpa using hs
  · simpa using hb
  · simpa using hsum

/-- The number of samples is a power of two. -/
theorem avgSamples_coprime (a : Sel) : Nat.Coprime 625 (avgSamples a) := by
  revert a
  decide

/-- No time but 0 is a whole number of units after the 5 %: 21 and the number of samples are coprime to 625, and the
time of one sample is no multiple of it. -/
theorem convUs_not_whole {p : Params} {c : CfgCache} (h : convUs p c ≠ 0) : (21 * convUs p c) % 20000 ≠ 0 := by
  intro hwhole
  have hconv : 625 ∣ convUs p c := by omega
  have hsample := (avgSamples_coprime c.avg).dvd_of_dvd_mul_left hconv
  refine sampleTime_mod_ne_zero (measures_le _ _) (measures_le _ _) ?_ _ _ (Nat.mod_eq_zero_of_dvd hsample)
  rintro ⟨hbus, hshunt⟩
  exact h (by rw [convUs, hbus, hshunt]; simp)

/-- Settles O30, part by part; the greatest timeout is computed from the greatest table entries. -/
theorem timeoutFormula : Obligations.TimeoutFormula := by
  intro p c
  refine ⟨timeoutOf_eq_ceil _, convUs_le p c, Nat.le_add_left _ _, tmoEst_le p c, fun h => ?zero,
    convUs_eq_zero_of_powerDown, convUs_not_whole, fun hc hbus hshunt => ?greatest⟩
  case zero => rw [tmoEst, h]; rfl
  case greatest =>
    have havg : c.avg = 7 := congrArg CfgCache.avg hc
    have hbvct : c.bvct = 7 := congrArg CfgCache.bvct hc
    have hsvct : c.svct = 7 := congrArg CfgCache.svct hc
    rw [tmoEst, convUs, havg, hbvct, hsvct, hbus, hshunt]
    rfl

/-- Settles O29: the 5 % as 105 / 100 per millisecond is the 21 / 20000 of R152. -/
theorem estimateCommand : Obligations.EstimateCommand := by
  intro s times sampleCount busTime shuntTime
  have hconv : busTime + shuntTime = convUs s.params s.cache := (convUs_eq_add s.params s.cache).symm
  have hunits : (105 / 100 : ℚ) * ((busTime : ℚ) + (shuntTime : ℚ)) / 1000 =
      21 * (convUs s.params s.cache : ℚ) / 20000 := by
    rw [← hconv, Nat.cast_add]
    ring
  rw [hunits, hconv, ← timeoutOf_eq_ceil]
  exact ⟨rfl, convUs_le _ _, decode_encode (i := .tmoest) rfl⟩

/-! Layer: the outcome of a wait is fixed by the device's answers (R156, R160). -/

/-- A wait succeeds at the first poll that sees the flag: of two such polls each is the other. -/
theorem boundedWait_of_ready {T n : Nat} {s : State} (hn : n ≤ T) (hclear : ∀ k < n, ¬ ReadyAt s k)
    (hready : ReadyAt s n) :
    boundedWait T s =
      waitOutcome s true n (n + 1) (.memRead s.params.devAddr 0x06 (s.readAt n) :: clearPasses s n) := by
  rcases boundedWait_cases T s with ⟨hall, -⟩ | ⟨m, -, hclear', hready', h⟩
  · exact absurd hready (Bool.eq_false_iff.mp (hall n hn))
  · rcases lt_trichotomy m n with hlt | rfl | hlt
    · exact absurd hready' (hclear m hlt)
    · exact h
    · exact absurd hready (Bool.eq_false_iff.mp (hclear' n hlt))

/-- A wait times out when `T + 1` polls see the flag clear. -/
theorem boundedWait_of_timeout {T : Nat} {s : State} (hclear : ∀ k ≤ T, ¬ ReadyAt s k) :
    boundedWait T s = waitOutcome s false (T + 1) (T + 1) (clearPasses s (T + 1)) := by
  rcases boundedWait_cases T s with ⟨-, h⟩ | ⟨n, hn, -, hready, -⟩
  · exact h
  · exact absurd hready (hclear n hn)

/-- A command that ends after one read of the mask/enable register. -/
theorem done_after_read (s : State) (ready : Bool) :
    done .ok (boolReg ready) 0 (memReadState regMaskEnable s) =
      waitOutcome s ready 0 1 [.memRead s.params.devAddr 0x06 (s.readAt 0)] := by
  simp only [waitOutcome, List.drop_one]
  rfl

/-- `ISRDY` is one read and its flag (R155). -/
theorem isReady_eq (s : State) :
    isReady s = waitOutcome s (readyFlag (s.readAt 0)) 0 1 [.memRead s.params.devAddr 0x06 (s.readAt 0)] :=
  done_after_read s _

/-- The fast path of `WAITC` (R160). -/
theorem computedWait_of_ready {s : State} (h : ReadyAt s 0) :
    computedWait s = waitOutcome s true 0 1 [.memRead s.params.devAddr 0x06 (s.readAt 0)] := by
  have hready : readyFlag (s.readAt 0) = true := h
  rw [computedWait_eq, if_pos hready]
  exact done_after_read s true

/-- `WAITC` past the fast path is the wait of `WAITT` after one read (R160). -/
theorem computedWait_of_not_ready {s : State} (h : ¬ ReadyAt s 0) :
    computedWait s = boundedWait (tmoEst s.params s.cache) (memReadState regMaskEnable s) := by
  have hready : ¬ readyFlag (s.readAt 0) = true := h
  rw [computedWait_eq, if_neg hready]

/-- Bit 3 by its mask. -/
theorem and_0008_eq_iff (w : Word16) : w &&& 0x0008 = 0x0008 ↔ readyFlag w = true := by
  have hmask : (0x0008 : Word16) = BitVec.twoPow 16 3 := rfl
  rw [hmask, BitVec.and_twoPow, readyFlag]
  cases w.getLsbD 3 <;> decide

/-- Settles O32: one read, whose masked bit is the flag. -/
theorem readyCommand : Obligations.ReadyCommand := by
  refine fun s => ⟨?_, decode_encode (i := .isrdy) rfl⟩
  change Host.Outcome.next (isReady s) = _
  simp only [isReady_eq, waitOutcome, and_0008_eq_iff, List.drop_one]
  rfl

/-- Settles O33: `WAITT` is the wait of `TMO` units. -/
theorem callerTimeoutWait : Obligations.CallerTimeoutWait :=
  fun _ => ⟨fun _ hn hclear hready => congrArg Host.Outcome.next (boundedWait_of_ready hn hclear hready),
    fun hclear => congrArg Host.Outcome.next (boundedWait_of_timeout hclear), decode_encode (i := .waitt) rfl⟩

/-- Settles O34: after the first read the answers to come have moved up by one, and the wait of `WAITT` goes on. -/
theorem computedTimeoutWait : Obligations.ComputedTimeoutWait := by
  intro s T first s1
  have hanswer : ∀ k, s1.readAt k = s.readAt (k + 1) := memReadState_readAt regMaskEnable s
  have hs1 : ∀ k, ReadyAt s1 k ↔ ReadyAt s (k + 1) := fun k => by rw [ReadyAt, hanswer]
  refine ⟨fun h => congrArg Host.Outcome.next (computedWait_of_ready h), fun h n hn hclear hready => ?ready,
    fun h hclear => ?timeout, decode_encode (i := .waitc) rfl⟩
  case ready =>
    rw [← hanswer]
    refine congrArg Host.Outcome.next ((computedWait_of_not_ready h).trans ?_)
    exact boundedWait_of_ready hn (fun k hk => (hs1 k).not.mpr (hclear k hk)) ((hs1 n).mpr hready)
  case timeout =>
    refine congrArg Host.Outcome.next ((computedWait_of_not_ready h).trans ?_)
    exact boundedWait_of_timeout fun k hk => (hs1 k).not.mpr (hclear k hk)

/-! Layer: how long a wait takes (R158). -/

/-- From `s` to `t` the trace grew by at most `polls` device accesses and `sleeps` sleeps. -/
def EndsWithin (s t : State) (polls sleeps : Nat) : Prop :=
  ∃ evs, t.trace = evs ++ s.trace ∧ (accesses evs).length ≤ polls ∧ evs.count .sleep ≤ sleeps

/-- The bounds of two stretches add up. -/
theorem EndsWithin.trans {s t u : State} {p q p' q' : Nat} (h : EndsWithin s t p q) (h' : EndsWithin t u p' q') :
    EndsWithin s u (p + p') (q + q') := by
  obtain ⟨evs, ht, hp, hq⟩ := h
  obtain ⟨evs', hu, hp', hq'⟩ := h'
  refine ⟨evs' ++ evs, by rw [hu, ht, List.append_assoc], ?_, ?_⟩
  · rw [accesses_append, List.length_append]
    omega
  · rw [List.count_append]
    omega

/-- A read is one access and no sleep. -/
theorem memReadState_endsWithin (a : Addr) (s : State) : EndsWithin s (memReadState a s) 1 0 :=
  ⟨[_], rfl, le_rfl, by simp⟩

/-- A clear pass sleeps once. -/
theorem count_sleep_clearPasses (s : State) (n : Nat) : (clearPasses s n).count .sleep = n := by
  induction n with
  | zero => rfl
  | succ n ih => simp [clearPasses, ih]

/-- A clear pass polls once. -/
theorem length_accesses_clearPasses (s : State) (n : Nat) : (accesses (clearPasses s n)).length = n := by
  rw [accesses_clearPasses, List.length_replicate]

/-- A wait of `T` units ends within `T + 1` polls and `T + 1` sleeps. -/
theorem boundedWait_endsWithin (T : Nat) (s : State) : EndsWithin s (boundedWait T s) (T + 1) (T + 1) := by
  rcases boundedWait_cases T s with ⟨-, h⟩ | ⟨n, hn, -, -, h⟩
  · rw [h]
    exact ⟨_, rfl, (length_accesses_clearPasses _ _).le, (count_sleep_clearPasses _ _).le⟩
  · rw [h]
    refine ⟨_, rfl, ?_, ?_⟩
    · simpa [accesses, length_accesses_clearPasses] using hn
    · simpa [count_sleep_clearPasses] using Nat.le_succ_of_le hn

/-- `WAITC` polls once more than its loop. -/
theorem computedWait_endsWithin (s : State) :
    EndsWithin s (computedWait s) (tmoEst s.params s.cache + 2) (tmoEst s.params s.cache + 1) := by
  have hread := memReadState_endsWithin regMaskEnable s
  by_cases hready : ReadyAt s 0
  · obtain ⟨evs, ht, hp, hq⟩ := hread
    exact ⟨evs, by rw [← ht, computedWait_of_ready hready]; rfl, by omega, by omega⟩
  · rw [computedWait_of_not_ready hready]
    have hboth := hread.trans (boundedWait_endsWithin (tmoEst s.params s.cache) _)
    rwa [Nat.add_comm 1, Nat.zero_add] at hboth

/-- Settles O35: each wait's own bound, and the ranges of `TMO` and of the estimate. -/
theorem waitsAreBounded : Obligations.WaitsAreBounded := by
  intro s
  obtain ⟨evs, hwaitt⟩ := boundedWait_endsWithin s.tmo.toNat s
  obtain ⟨evs', hwaitc⟩ := computedWait_endsWithin s
  exact ⟨⟨_, evs, rfl, hwaitt⟩, ⟨_, evs', rfl, hwaitc⟩, Nat.le_sub_one_of_lt s.tmo.isLt, tmoEst_le _ _⟩

/-! Layer: what the result registers depend on (R161). -/

/-- The result registers. -/
def reported (s : State) : Word16 × Reg × Reg := (s.status, s.value, s.aux)

/-- What a wait reports is its success and its count. -/
theorem reported_waitOutcome (s s' : State) (ready : Bool) (n reads reads' : Nat) (evs evs' : List Event) :
    reported (waitOutcome s ready n reads evs) = reported (waitOutcome s' ready n reads' evs') := rfl

/-- Equal answers to come make equal waits. -/
theorem reported_boundedWait_congr (T : Nat) {s s' : State} (h : ∀ k, s.readAt k = s'.readAt k) :
    reported (boundedWait T s) = reported (boundedWait T s') := by
  have hready : ∀ k, ReadyAt s' k ↔ readyFlag (s.readAt k) = true := fun k => by rw [h k]; rfl
  rcases boundedWait_cases T s with ⟨hclear, hs⟩ | ⟨n, hn, hclear, hset, hs⟩
  · rw [hs, boundedWait_of_timeout fun k hk => (hready k).not.mpr (by simp [hclear k hk])]
    exact reported_waitOutcome ..
  · rw [hs, boundedWait_of_ready hn (fun k hk => (hready k).not.mpr (by simp [hclear k hk])) ((hready n).mpr hset)]
    exact reported_waitOutcome ..

/-- Equal answers to come, caches and parameters make equal computed waits. -/
theorem reported_computedWait_congr {s s' : State} (h : ∀ k, s.readAt k = s'.readAt k) (hc : s.cache = s'.cache)
    (hp : s.params = s'.params) : reported (computedWait s) = reported (computedWait s') := by
  have hready : ReadyAt s 0 ↔ ReadyAt s' 0 := by rw [ReadyAt, ReadyAt, h 0]
  by_cases hr : ReadyAt s 0
  · rw [computedWait_of_ready hr, computedWait_of_ready (hready.mp hr)]
    exact reported_waitOutcome ..
  · rw [computedWait_of_not_ready hr, computedWait_of_not_ready (hready.not.mp hr), hc, hp]
    exact reported_boundedWait_congr _ fun k => by simp [h (k + 1)]

/-- The three commands that wait or poll leave the outcome of a wait. -/
theorem exec_waiter_outcome {i : Instr} (hi : i ∈ [Instr.isrdy, .waitt, .waitc]) (s : State) :
    ∃ ready n reads evs, exec i s = .next (waitOutcome s ready n reads evs) := by
  simp only [List.mem_cons, List.not_mem_nil, or_false] at hi
  rcases hi with rfl | rfl | rfl
  · exact ⟨_, _, _, _, congrArg Host.Outcome.next (isReady_eq s)⟩
  · obtain ⟨ready, n, reads, evs, h, -⟩ := boundedWait_events s.tmo.toNat s
    exact ⟨ready, n, reads, evs, congrArg Host.Outcome.next h⟩
  · obtain ⟨ready, n, reads, evs, h, -⟩ := computedWait_events s
    exact ⟨ready, n, reads, evs, congrArg Host.Outcome.next h⟩

/-- Settles O36, command by command; the outcome of a wait keeps the cache and the calibration registers. -/
theorem waiterKeepsNothing : Obligations.WaiterKeepsNothing := by
  refine ⟨fun s s' t t' h => ⟨fun ht ht' => ?isrdy, fun htmo ht ht' => ?waitt, fun hc hp ht ht' => ?waitc⟩,
    fun i hi s t ht => ?frame⟩
  case isrdy =>
    cases ht; cases ht'
    rw [isReady_eq, isReady_eq, h 0]
    exact reported_waitOutcome ..
  case waitt =>
    cases ht; cases ht'
    rw [htmo]
    exact reported_boundedWait_congr _ h
  case waitc =>
    cases ht; cases ht'
    exact reported_computedWait_congr h hc hp
  case frame =>
    obtain ⟨ready, n, reads, evs, hexec⟩ := exec_waiter_outcome hi s
    cases hexec.symm.trans ht
    exact ⟨rfl, rfl, rfl, rfl, rfl⟩

end Sys2Proof.Machine
end

section
/-! PROOFS. Scope: the block's answers in place of exceptions (60_exceptions.md): every step ends in a next state, and
which status codes each command reports. -/

namespace Sys2Proof.Machine

/-- Settles O37: no input, no command and no illegal word ends otherwise than in a next state. -/
theorem everyStepAnswersNext : Obligations.EveryStepAnswersNext :=
  step_next

/-! Layer: the codes a command reports (R171). -/

/-- A command that ends in a write reports how the device answered it. -/
theorem writeCode_mem (st : TransportStatus) :
    (if st = .ok then 0x0000 else 0x8004) ∈ ([0x0000, 0x8004] : List Word16) := by
  cases st <;> decide

/-- A failed check reports one of three codes, none of them the one of normalisation (R122 to R124). -/
theorem code_mem_of_precheck {M S : Nat} {e : Status} (h : precheck M S = some e) :
    e.code ∈ ([0x8000, 0x8001, 0x8002] : List Word16) := by
  rcases precheck_some h with rfl | rfl | rfl <;> decide

/-- Settles O42, over every way a command can end: no `CAL` ends in a normalisation failure (R136). -/
theorem commandStatusCodes : Obligations.CommandStatusCodes := by
  intro i s t h
  have hwrite := writeCode_mem s.nextWrite
  cases exec_ends h with
  | ignored f v hi => subst hi; cases f <;> exact List.mem_cons_self
  | set f v hi => subst hi; cases f <;> exact hwrite
  | got f v hi => subst hi; cases f <;> exact List.mem_cons_self
  | softReset hi => subst hi; exact hwrite
  | calRejected n e hi he =>
    subst hi
    have hsub : ([0x8000, 0x8001, 0x8002] : List Word16) ⊆ [0x0000, 0x8000, 0x8001, 0x8002, 0x8004] := by decide
    exact hsub (code_mem_of_precheck he)
  | calOffered n L r hi =>
    subst hi
    have hsub : ([0x0000, 0x8004] : List Word16) ⊆ [0x0000, 0x8000, 0x8001, 0x8002, 0x8004] := by decide
    exact hsub hwrite
  | estimated hi => subst hi; exact List.mem_cons_self
  | waited ready n reads evs hi => rcases hi with rfl | rfl | rfl <;> exact List.mem_cons_self

end Sys2Proof.Machine
end

section
/-! PROOFS. Scope: reset and hazards (70_reset_and_hazards.md): what a reset of the block leaves, and what the commands do
from reset, before the host has written their operands. -/

namespace Sys2Proof.Machine

open Sys2Proof.Safety

/-! Layer: the block's reset (R190 to R192). -/

/-- A reset that comes next is taken off the inputs and resets the block (R190). -/
theorem step_of_inputs_reset {s : State} {rest : List Input} (h : s.inputs = .reset :: rest) :
    step s = .next (resetBlock (s.withInputs rest)) :=
  step_of_inputs_cons h

/-- Settles O11: `resetBlock` keeps the parameters and what the environment still has to give, and adds no device access to
the trace (log 9). -/
theorem resetFromAnyState : Obligations.ResetFromAnyState :=
  fun _ _ hs => step_of_inputs_reset hs

/-! Layer: commands whose operands the host has not written (R204). -/

/-- From reset `MAXI` is 0: check 1 passes and check 2 fails (R122, R123). -/
theorem exec_cal_resetWith (p : Params) (n : Bool) :
    exec (.cal n) (State.resetWith p) = .next (raise .maxCurrentLow (State.resetWith p)) :=
  exec_cal_of_rejected n (precheck_of_current_low (M := 0) (S := 0) (by decide) (by decide))

/-- A wait of no units is a single poll, whether it sees the flag or times out (R156). -/
theorem boundedWait_zero (s : State) :
    ∃ ready n evs, boundedWait 0 s = waitOutcome s ready n 1 evs ∧ accesses evs = [(true, 0x06)] := by
  rcases boundedWait_cases 0 s with ⟨-, h⟩ | ⟨n, hn, -, -, h⟩
  · exact ⟨_, _, _, h, accesses_clearPasses s 1⟩
  · obtain rfl : n = 0 := Nat.le_zero.mp hn
    exact ⟨_, _, _, h, rfl⟩

/-- From reset `TMO` is 0, so `WAITT` waits no units (R159). -/
theorem exec_waitt_resetWith (p : Params) :
    exec .waitt (State.resetWith p) = .next (boundedWait 0 (State.resetWith p)) :=
  rfl

/-- Settles O12: `CAL` fails its check of `MAXI`, and `WAITT` is a single poll. -/
theorem operandsNotWritten : Obligations.OperandsNotWritten := by
  intro p n s
  refine ⟨exec_cal_resetWith p n, boundedWait 0 s, exec_waitt_resetWith p, ?_⟩
  obtain ⟨ready, k, evs, hwait, hacc⟩ := boundedWait_zero s
  have htrace : (waitOutcome s ready k 1 evs).trace = evs := List.append_nil evs
  rw [hwait, htrace]
  exact ⟨rfl, hacc⟩

end Sys2Proof.Machine
end
